-- ==== Sys2Proof/Word.lean ====
section
/-! DEFINITION. The words and small index types of the DW96: bytes on its interfaces, sets of notice groups,
sets of attention flags, tags and station addresses. -/

namespace Sys2Proof

/-- One byte on the edit port or on a kiosk trunk (R198). -/
abbrev Byte := BitVec 8

/-- A set of notice groups 0 to 11, bit g for group g (R172, R198). -/
abbrev Groups := BitVec 12

/-- A set of the six attention flags, in the bit order of R198. -/
abbrev AttnFlags := BitVec 6

/-- A tag chosen by a station, 0 to 15 (R104). -/
abbrev Tag := Fin 16

/-- A trunk, 0 to 5 (R160). -/
abbrev TrunkNo := Fin 6

/-- The number of a station on its trunk, 0 to 15. -/
abbrev StationNo := Fin 16

/-- One of the 96 station addresses 0.00 to 5.15, numbered 16 times the trunk plus the station (R167). -/
abbrev Addr := Fin 96

/-- What an output pin shows: a logic level, or nothing driven (R197). -/
inductive PinLevel where
  | low | high | highImpedance
  deriving DecidableEq, Repr, Inhabited

end Sys2Proof
end

