-- ==== Sys2Proof/Syntax.lean ====
section
/-! DEFINITION. The commands of the DW96: one constructor for each row of the table of operations and events.

A host command carries the bytes of its SPI frame after the kind byte: the length byte, the payload and any bytes
beyond it (R188, R198). A reply of a station carries the trunk it arrives on, the delay of its start marker in bit
times after the message that drew it (R165), and its content. A step of the part itself carries the record it is
about, where the table's row is about one of several. -/

namespace Sys2Proof

/-- What a good reply of a station says (R165). The payload of a REQUEST is its type byte and its parameters. -/
inductive StationReply where
  | empty
  | ready
  | request (tag : Tag) (payload : List Byte)
  deriving DecidableEq, Repr

inductive Instr where
  -- frames on the edit port that are not commands of the part
  /-- A REPLY frame in which the host clocks `clocked` bytes (R189). -/
  | reply (clocked : Nat)
  | unknownCommand (kind : Byte) (frame : List Byte)
  -- the eleven edits
  | putListing (frame : List Byte)
  | setListingStatus (frame : List Byte)
  | retireListing (frame : List Byte)
  | putNode (frame : List Byte)
  | removeNode (frame : List Byte)
  | putSegment (frame : List Byte)
  | setSegmentState (frame : List Byte)
  | removeSegment (frame : List Byte)
  | setExit (frame : List Byte)
  | setHome (frame : List Byte)
  | setConfig (frame : List Byte)
  -- schedule and turns
  | schedule (frame : List Byte)
  | unschedule (frame : List Byte)
  | turn (frame : List Byte)
  -- the load monitor
  | load (frame : List Byte)
  | setThreshold (frame : List Byte)
  | readLoad (frame : List Byte)
  -- reads and counts
  | readListing (frame : List Byte)
  | readNode (frame : List Byte)
  | readSegment (frame : List Byte)
  | readStatus (frame : List Byte)
  | readStation (frame : List Byte)
  | readStationChanges (frame : List Byte)
  | readCounts (frame : List Byte)
  | clearCounts (frame : List Byte)
  -- station control
  | setSubscription (frame : List Byte)
  | disableStation (frame : List Byte)
  | releaseStation (frame : List Byte)
  | resetTrunk (frame : List Byte)
  -- time, evacuation, attention, service
  | setTime (frame : List Byte)
  | evacStart (frame : List Byte)
  | evacClear (frame : List Byte)
  | setAttentionMask (frame : List Byte)
  | ackAttention (frame : List Byte)
  | startService (frame : List Byte)
  | restartService (frame : List Byte)
  | fullReset (frame : List Byte)
  -- pins
  | resetAssert
  | resetRelease
  | emergencyAsserted
  | emergencyReleased
  -- time
  | secondEvent
  | minuteEvent
  | autoTurnExpiry
  | staleExpiry (segment : Nat)
  | holdExpiry (station : Addr) (tag : Tag)
  -- the turn
  | drainComplete
  | applyStagedEdit
  | weightSampling
  | relocationRepair
  | reachabilityFloods
  | turnComplete
  -- frames of a trunk
  | frameStart (trunk : TrunkNo)
  | resetCountdownExpiry (station : Addr)
  | notice (trunk : TrunkNo)
  | poll (trunk : TrunkNo)
  | stationReset (trunk : TrunkNo)
  | probe (trunk : TrunkNo)
  -- replies of a station
  | probeReply (trunk : TrunkNo) (delay : Nat) (content : StationReply)
  | emptyReply (trunk : TrunkNo) (delay : Nat)
  | readyReply (trunk : TrunkNo) (delay : Nat)
  | badReply (trunk : TrunkNo) (delay : Nat) (message : List Byte)
  | replyWindowClose (trunk : TrunkNo)
  -- requests of a station: the parameter bytes follow the type byte
  | findRequest (trunk : TrunkNo) (delay : Nat) (tag : Tag) (params : List Byte)
  | browseRequest (trunk : TrunkNo) (delay : Nat) (tag : Tag) (params : List Byte)
  | routeRequest (trunk : TrunkNo) (delay : Nat) (tag : Tag) (params : List Byte)
  | pageRequest (trunk : TrunkNo) (delay : Nat) (tag : Tag) (params : List Byte)
  | cancelRequest (trunk : TrunkNo) (delay : Nat) (tag : Tag) (params : List Byte)
  | releaseRequest (trunk : TrunkNo) (delay : Nat) (tag : Tag) (params : List Byte)
  | seenRequest (trunk : TrunkNo) (delay : Nat) (tag : Tag) (params : List Byte)
  | sleepRequest (trunk : TrunkNo) (delay : Nat) (tag : Tag) (params : List Byte)
  | wakeRequest (trunk : TrunkNo) (delay : Nat) (tag : Tag) (params : List Byte)
  -- the engines
  | routeSearchSettle
  | exitTreeWalkStep
  | routeFormingEnd
  | routeEngineHalt
  | findScanStep
  | findFormingEnd
  | findEngineHalt
  -- the exit tree, the line filter, the reply
  | exitTreeBuildStart
  | exitTreeSettle
  | exitTreeBuildComplete
  | emergencySample (asserted : Bool)
  | replyFormed
  deriving DecidableEq, Repr

end Sys2Proof
end

