-- ==== Sys2Proof/Decode.lean ====
section
/-! DEFINITION. Reading a command from the bits of its row. The table gives bits to none of its rows, so no word spells
a command (log 31). The layouts of the frames and messages are in Machine/Formats.lean and Machine/Operands.lean. -/

namespace Sys2Proof

/-- The command that a word spells by the bits of the table: none, since no row gives bits. -/
def decodeTableWord (_nbits _w : Nat) : Option Instr := none

end Sys2Proof
end

