-- ==== Sys2Proof/Config.lean ====
section
/-! DEFINITION. The capacities the part is built with, and the configuration record of R196 with its defaults. -/

namespace Sys2Proof

/-- The unreachable cost (R94). -/
abbrev unreachable : Nat := 16777215
/-- The capacity of the staged edit queue (R47). -/
abbrev stagedCapacity : Nat := 64
/-- The capacity of the scheduled list (R53). -/
abbrev scheduleCapacity : Nat := 32
/-- The capacity of the query table (R103). -/
abbrev tableCapacity : Nat := 32
/-- The live entries one station address may have (R103). -/
abbrev stationCapacity : Nat := 2
/-- The slots of an answer queue (R170). -/
abbrev slotCapacity : Nat := 4
/-- The entries of a frontier (R131). -/
abbrev frontierCapacity : Nat := 512
/-- The entries of a ranked result list (R153). -/
abbrev resultCapacity : Nat := 24
/-- The steps of a route answer (R140). -/
abbrev stepCapacity : Nat := 64
/-- The segments of an adjacency list (R28). -/
abbrev degreeCapacity : Nat := 6
/-- The number of node entries (R24), which bounds every search, path and flood. -/
abbrev nodeCapacity : Nat := 2048

/-! ### Free values: output levels that the manual gives no rule (log 36) -/

/-- The driver enable of a trunk on which no message is sent and no reply is awaited. -/
opaque Config.idleDriver : TrunkNo → Bool
/-- MISO under SEL low while the part is held reset. -/
opaque Config.misoInReset : PinLevel

/-- The share of a frame kept for notices (R161). -/
inductive NoticeShare where
  | none | eighth | quarter | half
  deriving DecidableEq, Repr

/-- The link bit rate after the BEACON (R161). -/
inductive BitRate where
  | k250 | k500 | m1
  deriving DecidableEq, Repr

/-- The configuration record, field by field as in R196. A floor label is a pair of directory symbols. -/
structure Configuration where
  frameLength : Nat
  noticeShare : NoticeShare
  bitRate : BitRate
  faultLimit : Nat
  paceStandard : Nat
  paceStepFree : Nat
  paceEvacuation : Nat
  penaltyEscalator : Nat
  penaltyStair : Nat
  penaltyLift : Nat
  escalatorRide : Nat
  stairClimb : Nat
  liftWait : Nat
  liftTravel : Nat
  hysteresis : Nat
  staleLimit : Nat
  alarmLevel : Nat
  autoTurn : Nat
  effortLimit : Nat
  holdTime : Nat
  frozen : Bool
  labels : List (Nat × Nat)
  deriving DecidableEq, Repr

/-- The default of every field (R196). The labels are B1, G0 and L1 to L6 (R36) in the ordinals of R4. -/
def Configuration.default : Configuration where
  frameLength := 8
  noticeShare := .quarter
  bitRate := .m1
  faultLimit := 6
  paceStandard := 120
  paceStepFree := 80
  paceEvacuation := 100
  penaltyEscalator := 150
  penaltyStair := 300
  penaltyLift := 400
  escalatorRide := 25
  stairClimb := 20
  liftWait := 45
  liftTravel := 6
  hysteresis := 16
  staleLimit := 60
  alarmLevel := 0
  autoTurn := 30
  effortLimit := 2048
  holdTime := 20
  frozen := false
  labels := [(12, 2), (17, 1), (22, 2), (22, 3), (22, 4), (22, 5), (22, 6), (22, 7)]

end Sys2Proof
end

