-- ==== Sys2Proof/Machine/State.lean ====
section
/-! DEFINITION. The state of the DW96: every record, queue, counter, flag and mode the spec gives the part, block by
block, and its value right after a full reset (R194). Numbers that the manual adds and compares are `Nat`; their
ranges are kept by the operations. A numbered store is a list of (number, record) pairs with rising numbers. -/

namespace Sys2Proof.Machine

/-- The service state (R193). -/
inductive Service where
  | loading | starting | service
  deriving DecidableEq, Repr

/-! ### The Directory Store -/

/-- The status of a listing (R6). -/
inductive ListingStatus where
  | opened | closed | closedToday | comingSoon | relocated
  deriving DecidableEq, Repr

/-- Opening hours (R9). -/
structure Hours where
  opens : Nat
  closes : Nat
  deriving DecidableEq, Repr

/-- The fields of a listing that the host writes (R2), as an edit carries them and as the store holds them. -/
structure ListingForm where
  name : List Nat
  categories : List Nat
  floor : Nat
  entrances : List Nat
  status : ListingStatus
  forward : Option Nat
  hours : Option Hours
  deriving DecidableEq, Repr

/-- A listing in use (R2). -/
structure Listing extends ListingForm where
  popularity : Nat
  reachStandard : Bool
  reachStepFree : Bool
  deriving DecidableEq, Repr

/-- The Directory Store: listing table and name index (R1, R16). -/
structure Directory where
  listings : List (Nat × Listing)
  nameIndex : List Nat
  deriving DecidableEq, Repr

/-! ### The Walkway Graph Store -/

/-- The state of an exit (R34). -/
inductive ExitState where
  | usable | blocked
  deriving DecidableEq, Repr

/-- The kind of a node; an EXIT holds its exit state and an AMENITY its class (R25, R26). -/
inductive NodeKind where
  | junction | entrance | kiosk
  | exit (state : ExitState)
  | landing
  | amenity (cls : Nat)
  deriving DecidableEq, Repr

/-- The fields of a node that the host writes (R25). -/
structure NodeForm where
  floor : Nat
  kind : NodeKind
  x : Nat
  y : Nat
  deriving DecidableEq, Repr

/-- A node in use (R25). -/
structure Node extends NodeForm where
  adjacency : List Nat
  deriving DecidableEq, Repr

/-- The kind of a segment (R30). -/
inductive SegmentKind where
  | walk | ramp | stair | escalator | lift
  deriving DecidableEq, Repr

/-- The direction of a segment (R31). -/
inductive Direction where
  | both | aToB | bToA
  deriving DecidableEq, Repr

/-- The state of a segment (R32). -/
inductive SegmentState where
  | opened | closed
  deriving DecidableEq, Repr

/-- The fields of a segment that the host writes (R29). -/
structure SegmentForm where
  endA : Nat
  endB : Nat
  length : Nat
  kind : SegmentKind
  direction : Direction
  state : SegmentState
  deriving DecidableEq, Repr

/-- A segment in use, with its sampled weight in sixteenths (R29, R33). -/
structure Segment extends SegmentForm where
  weight : Nat
  deriving DecidableEq, Repr

/-- The Walkway Graph Store: nodes, segments and station homes (R24, R29, R35). -/
structure Graph where
  nodes : List (Nat × Node)
  segments : List (Nat × Segment)
  homes : Vector (Option Nat) 96
  deriving DecidableEq, Repr

/-! ### The Load Monitor -/

/-- The freshness of a reading (R76). -/
inductive Freshness where
  | none | fresh | stale
  deriving DecidableEq, Repr

/-- A load entry (R76). -/
structure LoadEntry where
  reading : Nat
  threshold : Nat
  freshness : Freshness
  age : Nat
  congested : Bool
  weight : Nat
  episodes : Nat
  deriving DecidableEq, Repr

/-- The Load Monitor: entries, congested count C and alarm state (R76, R82, R83). -/
structure LoadMonitor where
  entries : List (Nat × LoadEntry)
  congestedCount : Nat
  tripped : Bool
  deriving DecidableEq, Repr

/-! ### The Change Stage -/

/-- An edit of one of the eleven kinds, with its payload (R47). -/
inductive Edit where
  | putListing (number : Nat) (form : ListingForm)
  | setListingStatus (number : Nat) (status : ListingStatus) (forward : Option Nat)
  | retireListing (number : Nat)
  | putNode (number : Nat) (form : NodeForm)
  | removeNode (number : Nat)
  | putSegment (number : Nat) (form : SegmentForm)
  | setSegmentState (number : Nat) (state : SegmentState)
  | removeSegment (number : Nat)
  | setExit (number : Nat) (state : ExitState)
  | setHome (station : Addr) (node : Option Nat)
  | setConfig (config : Configuration)
  deriving DecidableEq, Repr

/-- An entry of the staged edit queue (R47). -/
structure Staged where
  edit : Edit
  seq : Nat
  deriving DecidableEq, Repr

/-- An entry of the scheduled list (R53). -/
structure Scheduled where
  number : Nat
  edit : Edit
  urgent : Bool
  minute : Nat
  due : Bool
  deriving DecidableEq, Repr

/-- The clock (R50). -/
structure Clock where
  set : Bool
  minute : Nat
  seconds : Nat
  deriving DecidableEq, Repr

/-- The Change Stage (R47, R50, R53). -/
structure ChangeStage where
  queue : List Staged
  nextSeq : Nat
  schedule : List Scheduled
  clock : Clock
  deriving DecidableEq, Repr

/-! ### The Epoch Controller -/

/-- A reason of the edit port and of the turn report (R190, R198). -/
inductive Reason where
  | badField | badLength | unknownCommand | queueFull | scheduleFull | noTime | noSuch | notLoading | notInService
  | evacLineActive
  | noSuchNode | noSuchSegment | noSuchListing | nodeInUse | degreeFull | floorMismatch | notEntrance | notKiosk
  | notExit
  deriving DecidableEq, Repr

/-- The turn state (R57). -/
inductive TurnState where
  | steady | draining | applying | validating
  deriving DecidableEq, Repr

/-- Which step of VALIDATING comes next (R67, R70). -/
inductive Validation where
  | repair | floods | completion
  deriving DecidableEq, Repr

/-- The report of the last completed turn (R71). -/
structure TurnReport where
  epoch : Nat
  applied : Nat
  rejected : Nat
  first : Option (Nat × Reason)
  groups : Groups
  unreachableStandard : Nat
  unreachableStepFree : Nat
  deriving DecidableEq, Repr

/-- What a turn in flight carries from step to step (R61, R69, R71). -/
structure TurnWork where
  remaining : Nat
  applied : Nat
  rejected : Nat
  first : Option (Nat × Reason)
  groups : Groups
  validation : Validation
  unreachableStandard : Nat
  unreachableStepFree : Nat
  deriving DecidableEq, Repr

/-- The Epoch Controller (R57). `expiring` is the model's mark of R59: a second event has brought the countdown to 0
and AUTO_TURN_EXPIRY has not been taken yet. -/
structure EpochController where
  epoch : Nat
  turn : TurnState
  wanted : Bool
  rollover : Bool
  countdown : Nat
  expiring : Bool
  report : TurnReport
  work : TurnWork
  deriving DecidableEq, Repr

/-! ### Queries and their answers -/

/-- A profile (R37). -/
inductive Profile where
  | standard | stepFree | evacuation
  deriving DecidableEq, Repr

/-- The target of a ROUTE (R104). -/
inductive Target where
  | listing (number : Nat)
  | node (number : Nat)
  | amenity (cls : Nat)
  deriving DecidableEq, Repr

/-- The parameters of a lookup; a FIND carries a prefix and a BROWSE none (R148). -/
structure Lookup where
  typed : Option (List Nat)
  category : Option Nat
  floor : Option Nat
  openOnly : Bool
  deriving DecidableEq, Repr

/-- The kind and parameters of a query entry (R104). -/
inductive Query where
  | route (target : Target) (profile : Profile) (origin : Option Nat)
  | find (lookup : Lookup)
  | browse (lookup : Lookup)
  deriving DecidableEq, Repr

/-- The cause an entry was halted with (R104). -/
inductive HaltCause where
  | cancel | stationLeft | evacuation
  deriving DecidableEq, Repr

/-- The state of a live entry; READY holds the hold countdown (R104). -/
inductive EntryState where
  | queued
  | working
  | halting (cause : HaltCause)
  | ready (hold : Nat)
  deriving DecidableEq, Repr

/-- The status of a route answer (R141). -/
inductive RouteStatus where
  | found | noRoute | effortLimit
  deriving DecidableEq, Repr

/-- The flags of a route header (R142). -/
structure RouteFlags where
  approximate : Bool
  truncated : Bool
  closedNow : Bool
  relocated : Bool
  evacuation : Bool
  long : Bool
  deriving DecidableEq, Repr

/-- The header of a route answer (R141). -/
structure RouteHeader where
  tag : Tag
  status : RouteStatus
  epoch : Nat
  finalListing : Option Nat
  reached : Option Nat
  cost : Nat
  seconds : Nat
  minutes : Nat
  stepCount : Nat
  pageCount : Nat
  flags : RouteFlags
  deriving DecidableEq, Repr

/-- The way of a ride (R137). -/
inductive Way where
  | up | down
  deriving DecidableEq, Repr

/-- The action of a step; TAKE carries its ride (R137). -/
inductive StepAction where
  | start | left | right | back
  | take (kind : SegmentKind) (way : Way)
  | arrive
  deriving DecidableEq, Repr

/-- A step of a route answer (R137). -/
structure RouteStep where
  node : Nat
  action : StepAction
  floor : Nat
  distance : Nat
  deriving DecidableEq, Repr

/-- The header of a find answer (R155). -/
structure FindHeader where
  tag : Tag
  browse : Bool
  epoch : Nat
  total : Nat
  returned : Nat
  pageCount : Nat
  deriving DecidableEq, Repr

/-- A result entry of a find answer (R155). -/
structure FindResult where
  number : Nat
  name : List Nat
  floor : Nat
  status : ListingStatus
  forward : Option Nat
  openNow : Bool
  reachStandard : Bool
  reachStepFree : Bool
  deriving DecidableEq, Repr

/-- The content of an answer buffer (R104). -/
inductive Answer where
  | route (header : RouteHeader) (steps : List RouteStep)
  | find (header : FindHeader) (results : List FindResult)
  deriving DecidableEq, Repr

/-- A live query entry (R104). `slot` is the place of its own slot in the station's answer queue, reserved until the
entry is READY and then filled with READY; `cancelSlot` the place reserved by a CANCEL of it (R109, R117). -/
structure QueryEntry where
  addr : Addr
  tag : Tag
  query : Query
  state : EntryState
  epoch : Option Nat
  answer : Option Answer
  slot : Nat
  cancelSlot : Option Nat
  deriving DecidableEq, Repr

/-- The Query Table: the live entries in arrival order (R103, R105). -/
structure QueryTable where
  entries : List QueryEntry
  deriving DecidableEq, Repr

/-! ### Searches and engines -/

/-- A record of the work arrays, or of the exit tree: best cost, predecessor or next segment, settled (R130, R183). -/
structure NodeRecord where
  cost : Nat
  via : Option Nat
  settled : Bool
  deriving DecidableEq, Repr

/-- Work arrays, frontier and approximate flag (R130, R131, R134). A node that is not listed holds the unreachable
cost, no segment and is not settled. -/
structure Search where
  records : List (Nat × NodeRecord)
  frontier : List (Nat × Nat)
  approximate : Bool
  deriving DecidableEq, Repr

/-- A search that holds nothing (R130). -/
def Search.empty : Search := { records := [], frontier := [], approximate := false }

/-- The state of a Route Engine that holds an entry (R125). -/
inductive RoutePhase where
  | searching | walking | forming
  deriving DecidableEq, Repr

/-- The work record of the Route Engine (R125). The origin is absent when it failed (R127). `stands` and `taken` follow
a walk: the node it stands at and the segments taken, in walking order (R144). `limit` is the effort limit in force at
the grant (R132). The outcome and the reached node are absent until the search or walk has ended. -/
structure RouteWork where
  addr : Addr
  tag : Tag
  phase : RoutePhase
  profile : Profile
  origin : Option Nat
  targets : List Nat
  finalListing : Option Nat
  relocated : Bool
  settles : Nat
  limit : Nat
  outcome : Option RouteStatus
  reached : Option Nat
  stands : Nat
  taken : List Nat
  deriving DecidableEq, Repr

/-- The Route Engine: IDLE when it holds no work record (R125). -/
structure RouteEngine where
  work : Option RouteWork
  search : Search
  deriving DecidableEq, Repr

/-- The work record of the Find Engine (R147); `forming` is FORMING, else SCANNING. A result list entry is a listing
number and the count read for it (R153). -/
structure FindWork where
  addr : Addr
  tag : Tag
  browse : Bool
  lookup : Lookup
  forming : Bool
  clockSet : Bool
  minute : Nat
  position : Nat
  total : Nat
  results : List (Nat × Nat)
  deriving DecidableEq, Repr

/-- The Find Engine: IDLE when it holds no work record (R147). -/
structure FindEngine where
  work : Option FindWork
  deriving DecidableEq, Repr

/-! ### The Evacuation Unit -/

/-- The unit state (R180). -/
inductive UnitState where
  | off | building | active
  deriving DecidableEq, Repr

/-- The Evacuation Unit: line filter, latch, unit state and exit tree with its APPROXIMATE flag (R179, R180, R183). -/
structure EvacUnit where
  asserted : Bool
  differing : Nat
  latch : Bool
  unit : UnitState
  tree : Search
  deriving DecidableEq, Repr

/-! ### The Kiosk Link -/

/-- A refusal reason on the link (R198). -/
inductive LinkReason where
  | notInService | badRequest | tagInUse | busy | full | noTarget | noOrigin | noSuchTag | notReady | badPage
  | evacuating
  deriving DecidableEq, Repr

/-- A downstream message (R198). A page of steps carries the number of its first step in the answer. -/
inductive Downstream where
  | routeReady (header : RouteHeader)
  | findReady (header : FindHeader)
  | routePage (page : Nat) (first : Nat) (steps : List RouteStep)
  | findPage (page : Nat) (results : List FindResult)
  | refused (reason : LinkReason)
  | cancelled
  deriving DecidableEq, Repr

/-- A slot of an answer queue: reserved while it has no content, else filled with a tag and a message (R170). -/
structure Slot where
  place : Nat
  content : Option (Tag × Downstream)
  inFlight : Bool
  deriving DecidableEq, Repr

/-- The state of a station (R167). -/
inductive StationState where
  | absent | attached | resetting | enabled | dormant | faulted | disabled
  deriving DecidableEq, Repr

/-- A station record (R167). `delivery` false is the delivery number 0. `nextPlace` numbers the slots as they come
into the queue (R170). -/
structure Station where
  state : StationState
  misses : Nat
  attempts : Nat
  countdown : Nat
  queue : List Slot
  delivery : Bool
  overruns : Nat
  subscription : Groups
  pendingMask : Groups
  spacing : Nat
  raisedSince : Bool
  changed : Bool
  nextPlace : Nat
  deriving DecidableEq, Repr

/-- The four values a frame takes at its start (R160). -/
structure LinkSettings where
  frameLength : Nat
  noticeShare : NoticeShare
  bitRate : BitRate
  faultLimit : Nat
  deriving DecidableEq, Repr

/-- The part of a frame a trunk has come to (R161). -/
inductive FramePart where
  | notices | polls | finished
  deriving DecidableEq, Repr

/-- A reply awaited after a POLL or a PROBE (R165). `void` marks a station whose state has changed meanwhile. -/
structure Exchange where
  station : Addr
  probe : Bool
  void : Bool
  deriving DecidableEq, Repr

/-- The content of a BEACON (R162). -/
structure Beacon where
  frame : Nat
  epoch : Nat
  minute : Option Nat
  evacuation : Bool
  service : Service
  bitRate : BitRate
  floor : Nat
  label : Nat × Nat
  deriving DecidableEq, Repr

/-- A message that the part puts on a trunk (R161, R198). -/
inductive LinkMessage where
  | beacon (content : Beacon)
  | poll (station : StationNo) (delivery : Bool) (slotsFree : Nat) (carried : Option (Tag × Downstream))
  | notice (station : StationNo) (groups : Groups)
  | stationReset (station : StationNo)
  | probe (station : StationNo)
  deriving DecidableEq, Repr

/-- A trunk (R160 to R166, R173): frame number, settings of the frame, progress within it in microseconds, the four
pointers, the reply awaited and the last message sent. -/
structure Trunk where
  frame : Nat
  settings : LinkSettings
  elapsed : Nat
  part : FramePart
  noticed : List StationNo
  pollPtr : StationNo
  noticePtr : StationNo
  resetPtr : StationNo
  probePtr : StationNo
  exchange : Option Exchange
  sent : LinkMessage
  deriving DecidableEq, Repr

/-- The Kiosk Link: 96 station records and six trunks. -/
structure KioskLink where
  stations : Vector Station 96
  trunks : Vector Trunk 6
  deriving DecidableEq, Repr

/-! ### The Edit Port -/

/-- The status of a reply (R190). -/
inductive ReplyStatus where
  | ok | staged | refused | pending
  deriving DecidableEq, Repr

/-- The reply the Edit Port holds (R189). -/
structure HeldReply where
  status : ReplyStatus
  overrun : Bool
  data : List Byte
  deriving DecidableEq, Repr

/-- A reply that a command forms (R189, R190). -/
structure FormedReply where
  status : ReplyStatus
  data : List Byte
  deriving DecidableEq, Repr

/-- The reply of a command that is being taken: known whole, or with values still to be read when it is formed, the
clock for a listing (R11, R22) and the states of the stations whose change flags were taken (R177). -/
inductive Forming where
  | fixed (reply : FormedReply)
  | listing (number : Nat) (record : Listing)
  | changes (stations : List Addr)
  deriving DecidableEq, Repr

/-- The Edit Port (R188 to R191). `forming` is what the reply of the command being taken is formed from; `discarded`
says that a frame was discarded meanwhile; `miso` holds the bytes driven on MISO in the last frame. -/
structure EditPort where
  reply : HeldReply
  forming : Option Forming
  discarded : Bool
  flags : AttnFlags
  mask : AttnFlags
  miso : List Byte
  deriving DecidableEq, Repr

/-! ### The part -/

/-- The whole part, and the queue of the commands that wait for it. -/
structure State where
  service : Service
  resetHeld : Bool
  config : Configuration
  ds : Directory
  wg : Graph
  lm : LoadMonitor
  cs : ChangeStage
  ec : EpochController
  qt : QueryTable
  re : RouteEngine
  fe : FindEngine
  eu : EvacUnit
  kl : KioskLink
  ep : EditPort
  pending : List Instr
  deriving DecidableEq, Repr

/-- The spec gives no event that stops the part, so no fault exists. -/
inductive Fault where
  deriving DecidableEq, Repr

/-- Why a command has no outcome. -/
inductive Refusal where
  /-- Raised by `exec` alone, for a command whose meaning is not written yet: safe, since nothing follows from it. -/
  | notModelled (mnemonic : String)
  deriving DecidableEq, Repr

/-! ### After a full reset -/

/-- The report of a part that has completed no turn (R71). -/
def TurnReport.initial : TurnReport :=
  { epoch := 0, applied := 0, rejected := 0, first := none, groups := 0, unreachableStandard := 0,
    unreachableStepFree := 0 }

/-- The work of no turn. -/
def TurnWork.initial : TurnWork :=
  { remaining := 0, applied := 0, rejected := 0, first := none, groups := 0, validation := .repair,
    unreachableStandard := 0, unreachableStepFree := 0 }

/-- A station after a full reset (R178). -/
def Station.initial : Station :=
  { state := .absent, misses := 0, attempts := 0, countdown := 0, queue := [], delivery := false, overruns := 0,
    subscription := BitVec.allOnes 12, pendingMask := 0, spacing := 0, raisedSince := false, changed := false,
    nextPlace := 0 }

/-- A trunk after a full reset: its frame 0 has begun with a BEACON of 640 microseconds (R160, R161, R178). -/
def Trunk.initial : Trunk :=
  { frame := 0,
    settings := { frameLength := 8, noticeShare := .quarter, bitRate := .m1, faultLimit := 6 },
    elapsed := 640, part := .notices, noticed := [], pollPtr := 15, noticePtr := 15, resetPtr := 15, probePtr := 15,
    exchange := none,
    sent := .beacon { frame := 0, epoch := 0, minute := none, evacuation := false, service := .loading, bitRate := .m1,
                      floor := 0, label := (12, 2) } }

/-- The part right after a full reset (R194, with R23, R46, R74, R75, R88, R123, R146, R159, R178, R187 and R191). -/
def State.reset : State :=
  { service := .loading
    resetHeld := false
    config := Configuration.default
    ds := { listings := [], nameIndex := [] }
    wg := { nodes := [], segments := [], homes := Vector.replicate 96 none }
    lm := { entries := [], congestedCount := 0, tripped := false }
    cs := { queue := [], nextSeq := 0, schedule := [], clock := { set := false, minute := 0, seconds := 0 } }
    ec := { epoch := 0, turn := .steady, wanted := false, rollover := false, countdown := 30, expiring := false,
            report := TurnReport.initial, work := TurnWork.initial }
    qt := { entries := [] }
    re := { work := none, search := Search.empty }
    fe := { work := none }
    eu := { asserted := false, differing := 0, latch := false, unit := .off, tree := Search.empty }
    kl := { stations := Vector.replicate 96 Station.initial, trunks := Vector.replicate 6 Trunk.initial }
    ep := { reply := { status := .ok, overrun := false, data := [] }, forming := none, discarded := false,
            flags := 0, mask := BitVec.allOnes 6, miso := [] }
    pending := [] }

end Sys2Proof.Machine
end

