-- ==== Sys2Proof/Machine/Ops.lean ====
section
/-! DEFINITION. The operations that every block shares: numbered stores, banks of records, station records and their
answer queues, notice groups, turn requests, and the guard that a part held in reset does nothing. -/

namespace Sys2Proof.Machine

/-! ### Numbered stores: lists of (number, record) with strictly rising numbers -/

/-- The record of number `k`, if the number is in use. -/
def tableGet {α : Type} : List (Nat × α) → Nat → Option α
  | [], _ => none
  | (j, v) :: rest, k => if j = k then some v else tableGet rest k

/-- The store with number `k` in use and holding `v`. -/
def tablePut {α : Type} : List (Nat × α) → Nat → α → List (Nat × α)
  | [], k, v => [(k, v)]
  | (j, w) :: rest, k, v =>
    if k < j then (k, v) :: (j, w) :: rest
    else if k = j then (k, v) :: rest
    else (j, w) :: tablePut rest k v

/-- The store with number `k` free. -/
def tableErase {α : Type} : List (Nat × α) → Nat → List (Nat × α)
  | [], _ => []
  | (j, w) :: rest, k => if j = k then rest else (j, w) :: tableErase rest k

/-- The store with each record replaced by `f` of its number and itself. -/
def tableMap {α β : Type} (f : Nat → α → β) (t : List (Nat × α)) : List (Nat × β) :=
  t.map fun p => (p.1, f p.1 p.2)

/-- The store with the record of `k`, if in use, changed by `f`. -/
def tableUpdate {α : Type} (t : List (Nat × α)) (k : Nat) (f : α → α) : List (Nat × α) :=
  tableMap (fun j v => if j = k then f v else v) t

/-- Whether number `k` is in use. -/
def inUse {α : Type} (t : List (Nat × α)) (k : Nat) : Bool := (tableGet t k).isSome

/-- The records of the numbers `first` to `first + span - 1` that are in use, in ascending number (R20, R87). -/
def tableSpan {α : Type} (t : List (Nat × α)) (first span : Nat) : List (Nat × α) :=
  t.filter fun p => decide (first ≤ p.1) && decide (p.1 < first + span)

/-- The form of a numbered store: strictly rising numbers. -/
abbrev TableSorted {α : Type} (t : List (Nat × α)) : Prop := t.Pairwise fun p q => p.1 < q.1

/-! ### Ascending lists of numbers -/

/-- `n` at its place in an ascending list, once. -/
def insertNat (n : Nat) : List Nat → List Nat
  | [] => [n]
  | m :: rest => if n < m then n :: m :: rest else if n = m then m :: rest else m :: insertNat n rest

/-- The numbers of a list in ascending order, each once (R3). -/
def sortNat : List Nat → List Nat
  | [] => []
  | n :: rest => insertNat n (sortNat rest)

/-- The list without `n`; the remaining numbers close up in order (R28). -/
def removeNat (n : Nat) (l : List Nat) : List Nat := l.filter fun m => m != n

/-! ### Banks of a fixed number of records -/

/-- Every record replaced by `f` of its index and itself. -/
def mapBank {α β : Type} {n : Nat} (f : Fin n → α → β) (v : Vector α n) : Vector β n :=
  ⟨⟨(List.finRange n).map fun i => f i v[i]⟩, by simp⟩

/-- The trunk of a station address (R167). -/
def trunkOf (a : Addr) : TrunkNo := ⟨a.val / 16, by omega⟩

/-- The number of a station on its trunk (R167). -/
def stationOf (a : Addr) : StationNo := ⟨a.val % 16, by omega⟩

/-- The address of a station on a trunk (R167). -/
def addrOf (t : TrunkNo) (n : StationNo) : Addr := ⟨16 * t.val + n.val, by omega⟩

/-- The record of a station. -/
def stationAt (s : State) (a : Addr) : Station := s.kl.stations[a]

/-- The record of a station replaced. -/
def putStation (a : Addr) (st : Station) (s : State) : State :=
  { s with kl := { s.kl with stations := s.kl.stations.set a.val st a.isLt } }

/-- The record of a station changed by `f`. -/
def updateStation (a : Addr) (f : Station → Station) (s : State) : State :=
  putStation a (f (stationAt s a)) s

/-- Every station record changed by `f`. -/
def mapStations (f : Addr → Station → Station) (s : State) : State :=
  { s with kl := { s.kl with stations := mapBank f s.kl.stations } }

/-- The record of a trunk. -/
def trunkAt (s : State) (t : TrunkNo) : Trunk := s.kl.trunks[t]

/-- The record of a trunk replaced. -/
def putTrunk (t : TrunkNo) (k : Trunk) (s : State) : State :=
  { s with kl := { s.kl with trunks := s.kl.trunks.set t.val k t.isLt } }

/-- The record of a trunk changed by `f`. -/
def updateTrunk (t : TrunkNo) (f : Trunk → Trunk) (s : State) : State :=
  putTrunk t (f (trunkAt s t)) s

/-! ### Answer queues (R170) -/

/-- The queue of a station has no slot that is neither filled nor reserved (R171). -/
def slotsFull (st : Station) : Bool := decide (slotCapacity ≤ st.queue.length)

/-- A slot put behind the others; it takes the next place (R170). -/
def appendSlot (content : Option (Tag × Downstream)) (st : Station) : Station :=
  { st with queue := st.queue ++ [{ place := st.nextPlace, content := content, inFlight := false }],
            nextPlace := st.nextPlace + 1 }

/-- The slot of a place filled with a message; filling does not move it (R170). -/
def fillSlot (place : Nat) (tag : Tag) (m : Downstream) (st : Station) : Station :=
  { st with queue := st.queue.map fun x => if x.place = place then { x with content := some (tag, m) } else x }

/-- The slot of a place given up, if it is still reserved (R119). -/
def releaseSlot (place : Nat) (st : Station) : Station :=
  { st with queue := st.queue.filter fun x => !(x.place == place && x.content.isNone) }

/-! ### Notice groups (R172) -/

/-- Whether a station stands in ENABLED or DORMANT, the two states of a station in service (R120, R172). -/
def inService (st : Station) : Bool := st.state == .enabled || st.state == .dormant

/-- The set that holds group `g` alone, and no group when `g` is above 11 (R198). -/
def groupBit (g : Nat) : Groups := (1 : Groups) <<< g

/-- Raising groups at one station (R172). -/
def raiseAt (groups : Groups) (st : Station) : Station :=
  if inService st && (groups &&& st.subscription) != 0 then
    { st with pendingMask := st.pendingMask ||| (groups &&& st.subscription), raisedSince := true }
  else st

/-- Raising a set of groups: every subscribed station in ENABLED or DORMANT has them pending (R172). -/
def raiseGroups (groups : Groups) (s : State) : State := mapStations (fun _ st => raiseAt groups st) s

/-! ### Turn requests and the guard of reset -/

/-- A turn starts (R58). An auto-turn expiry that has not been taken was made before it, and leaves turn-wanted: none
can arrive during a turn (R72, log 5). -/
def startTurn (ec : EpochController) : EpochController :=
  { ec with turn := .draining, wanted := ec.wanted || ec.expiring, expiring := false }

/-- The turn that turn-wanted asked for starts; one further turn answers every request made, a waiting expiry among
them (R58, R70, R184). -/
def startWanted (ec : EpochController) : EpochController :=
  { ec with turn := .draining, wanted := false, expiring := false }

/-- A turn request (R58). In LOADING it is discarded. -/
def requestTurn (s : State) : State :=
  match s.service with
  | .loading => s
  | .starting | .service =>
    if s.ec.turn = .steady ∧ s.eu.unit ≠ .building then { s with ec := startTurn s.ec }
    else { s with ec := { s.ec with wanted := true } }

/-- A step of the part: while RESET is held low nothing happens in it (R194). -/
def live (f : State → State) (s : State) : Host.Outcome State Fault Refusal :=
  .next (if s.resetHeld then s else f s)

/-- A step that may be made only when its condition holds; otherwise the event does not occur (log 1). -/
def whenever (c : Prop) [Decidable c] (f : State → State) (s : State) : State := if c then f s else s

end Sys2Proof.Machine
end

