-- ==== Sys2Proof/Machine/Formats.lean ====
section
/-! DEFINITION. The layouts of R198: codes, multi-byte fields, the check word of R165, link messages, downstream
messages and reply data, as the bytes that cross the two interfaces. -/

namespace Sys2Proof.Machine

/-! ### Bytes -/

/-- One byte of a number. -/
def byteOf (n : Nat) : Byte := BitVec.ofNat 8 n

/-- A two-byte field, most significant byte first. -/
def be16 (n : Nat) : List Byte := [byteOf (n / 256), byteOf n]

/-- A three-byte field, most significant byte first. -/
def be24 (n : Nat) : List Byte := [byteOf (n / 65536), byteOf (n / 256), byteOf n]

/-- A node or listing field, 0xFFFF for none. -/
def be16OrNone (n : Option Nat) : List Byte := be16 (n.getD 65535)

/-- A byte of flags, the first flag in bit 0. -/
def flagsByte : List Bool → Nat
  | [] => 0
  | b :: rest => (if b then 1 else 0) + 2 * flagsByte rest

/-- A list of directory symbols padded with 0xFF to a field of `n` bytes. -/
def padded (n : Nat) (symbols : List Nat) : List Byte :=
  symbols.map byteOf ++ List.replicate (n - symbols.length) 0xFF

/-! ### Codes -/

def statusCode : ListingStatus → Nat
  | .opened => 0 | .closed => 1 | .closedToday => 2 | .comingSoon => 3 | .relocated => 4

def nodeKindCode : NodeKind → Nat
  | .junction => 0 | .entrance => 1 | .kiosk => 2 | .exit _ => 3 | .landing => 4 | .amenity _ => 5

def segmentKindCode : SegmentKind → Nat
  | .walk => 0 | .ramp => 1 | .stair => 2 | .escalator => 3 | .lift => 4

def directionCode : Direction → Nat
  | .both => 0 | .aToB => 1 | .bToA => 2

def segmentStateCode : SegmentState → Nat
  | .opened => 0 | .closed => 1

def exitStateCode : ExitState → Nat
  | .usable => 0 | .blocked => 1

def noticeShareCode : NoticeShare → Nat
  | .none => 0 | .eighth => 1 | .quarter => 2 | .half => 3

def bitRateCode : BitRate → Nat
  | .k250 => 0 | .k500 => 1 | .m1 => 2

def stationStateCode : StationState → Nat
  | .absent => 0 | .attached => 1 | .resetting => 2 | .enabled => 3 | .dormant => 4 | .faulted => 5 | .disabled => 6

def freshnessCode : Freshness → Nat
  | .none => 0 | .fresh => 1 | .stale => 2

def turnStateCode : TurnState → Nat
  | .steady => 0 | .draining => 1 | .applying => 2 | .validating => 3

def unitStateCode : UnitState → Nat
  | .off => 0 | .building => 1 | .active => 2

def serviceCode : Service → Nat
  | .loading => 0 | .starting => 1 | .service => 2

def replyStatusCode : ReplyStatus → Nat
  | .ok => 0 | .staged => 1 | .refused => 2 | .pending => 3

def routeStatusCode : RouteStatus → Nat
  | .found => 0 | .noRoute => 1 | .effortLimit => 2

def reasonCode : Reason → Nat
  | .badField => 1 | .badLength => 2 | .unknownCommand => 3 | .queueFull => 4 | .scheduleFull => 5 | .noTime => 6
  | .noSuch => 7 | .notLoading => 8 | .notInService => 9 | .evacLineActive => 10
  | .noSuchNode => 16 | .noSuchSegment => 17 | .noSuchListing => 18 | .nodeInUse => 19 | .degreeFull => 20
  | .floorMismatch => 21 | .notEntrance => 22 | .notKiosk => 23 | .notExit => 24

def linkReasonCode : LinkReason → Nat
  | .notInService => 1 | .badRequest => 2 | .tagInUse => 3 | .busy => 4 | .full => 5 | .noTarget => 6 | .noOrigin => 7
  | .noSuchTag => 8 | .notReady => 9 | .badPage => 10 | .evacuating => 11

/-- The kind bytes of the edit port: REPLY and the commands. -/
def hostKinds : List Byte :=
  [0x00, 0x10, 0x11, 0x12, 0x13, 0x14, 0x15, 0x16, 0x17, 0x18, 0x19, 0x1A, 0x20, 0x21, 0x28, 0x30, 0x31, 0x32,
   0x40, 0x41, 0x42, 0x43, 0x44, 0x45, 0x46, 0x48, 0x50, 0x51, 0x52, 0x53, 0x58, 0x60, 0x61, 0x68, 0x69, 0x70,
   0x71, 0x7F]

/-! ### The check word (R165) -/

/-- One bit of the division by x^16 + x^12 + x^5 + 1. -/
def crcBit (c : BitVec 16) : BitVec 16 := if c.msb then (c <<< 1) ^^^ 0x1021 else c <<< 1

/-- One byte, most significant bit first. -/
def crcByte (c : BitVec 16) (b : Byte) : BitVec 16 :=
  let c := c ^^^ (b.zeroExtend 16 <<< 8)
  crcBit (crcBit (crcBit (crcBit (crcBit (crcBit (crcBit (crcBit c)))))))

/-- The check word of the bytes of a message from its address on: starting value all ones, no reflection and no final
exclusive-or. -/
def checkWord (bytes : List Byte) : BitVec 16 := bytes.foldl crcByte 0xFFFF

/-- A whole link message: start marker, address, kind and tag, length, payload, check word. -/
def frameMessage (address : Byte) (kind tag : Nat) (payload : List Byte) : List Byte :=
  let covered := address :: byteOf (16 * kind + tag) :: byteOf payload.length :: payload
  0xC3 :: covered ++ be16 (checkWord covered).toNat

/-! ### Downstream messages -/

def actionCode : StepAction → Nat
  | .start => 0 | .left => 1 | .right => 2 | .back => 3 | .take _ _ => 4 | .arrive => 5

/-- The ride kind and way of a step: bits 4-3 and bit 2 of its third byte. -/
def rideBits : StepAction → Nat
  | .take .stair .up => 8 | .take .stair .down => 12
  | .take .escalator .up => 16 | .take .escalator .down => 20
  | .take .lift .up => 24 | .take .lift .down => 28
  | .take .walk _ | .take .ramp _ => 0
  | .start | .left | .right | .back | .arrive => 0

/-- The six bytes of a step with its number in the answer. -/
def encodeStep (number : Nat) (x : RouteStep) : List Byte :=
  be16 (8192 * actionCode x.action + x.node) ++ [byteOf (32 * x.floor + rideBits x.action), byteOf number]
    ++ be16 x.distance

/-- The steps of a page, numbered from `first`. -/
def encodeSteps (first : Nat) : List RouteStep → List Byte
  | [] => []
  | x :: rest => encodeStep first x ++ encodeSteps (first + 1) rest

/-- The thirty bytes of a find result. -/
def encodeResult (r : FindResult) : List Byte :=
  be16 r.number ++ padded 24 r.name ++ [byteOf (32 * r.floor + statusCode r.status)] ++ be16 (r.forward.getD 0)
    ++ [byteOf (flagsByte [r.openNow, r.reachStandard, r.reachStepFree])]

/-- The bytes of a downstream message. -/
def encodeDownstream : Downstream → List Byte
  | .routeReady h =>
    [1, byteOf (routeStatusCode h.status)] ++ be16 h.epoch ++ be16 (h.finalListing.getD 0) ++ be16OrNone h.reached
      ++ be24 h.cost ++ be16 h.seconds ++ [byteOf h.minutes, byteOf h.stepCount, byteOf h.pageCount,
        byteOf (flagsByte [h.flags.approximate, h.flags.truncated, h.flags.closedNow, h.flags.relocated,
          h.flags.evacuation, h.flags.long])]
  | .findReady h =>
    [2, if h.browse then 1 else 0] ++ be16 h.epoch ++ be16 h.total ++ [byteOf h.returned, byteOf h.pageCount]
  | .routePage page first steps => [3, byteOf page, byteOf steps.length] ++ encodeSteps first steps
  | .findPage page results => [4, byteOf page, byteOf results.length] ++ (results.map encodeResult).flatten
  | .refused reason => [5, byteOf (linkReasonCode reason)]
  | .cancelled => [6]

/-! ### Link messages of the part -/

def encodeBeacon (b : Beacon) : List Byte :=
  be16 b.frame ++ be16 b.epoch ++ be16OrNone b.minute
    ++ [byteOf ((if b.evacuation then 1 else 0) + 2 * serviceCode b.service + 16 * bitRateCode b.bitRate),
        byteOf b.floor, byteOf b.label.1, byteOf b.label.2]

/-- The payload of a POLL: delivery number, message carried, slots free, and the carried message. -/
def pollPayload (delivery : Bool) (slotsFree : Nat) (carried : Option (Tag × Downstream)) : List Byte :=
  byteOf ((if delivery then 128 else 0) + (if carried.isSome then 64 else 0) + slotsFree)
    :: (match carried with | some (_, m) => encodeDownstream m | none => [])

/-- The bytes of a message that the part puts on a trunk. -/
def encodeMessage : LinkMessage → List Byte
  | .beacon b => frameMessage 0xFF 1 0 (encodeBeacon b)
  | .poll n delivery slotsFree carried =>
    frameMessage (byteOf n.val) 2 (match carried with | some (tag, _) => tag.val | none => 0)
      (pollPayload delivery slotsFree carried)
  | .notice n groups => frameMessage (byteOf n.val) 3 0 (be16 groups.toNat)
  | .stationReset n => frameMessage (byteOf n.val) 4 0 []
  | .probe n => frameMessage (byteOf n.val) 5 0 []

/-- The bytes of a good reply of a station. -/
def encodeReply (n : StationNo) : StationReply → List Byte
  | .empty => frameMessage (byteOf n.val) 8 0 []
  | .ready => frameMessage (byteOf n.val) 10 0 []
  | .request tag payload => frameMessage (byteOf n.val) 9 tag.val payload

/-! ### Replies of a station (R165, R198) -/

/-- The type byte of a request. -/
inductive RequestType where
  | find | browse | route | page | cancel | release | seen | sleep | wake
  deriving DecidableEq, Repr

def requestTypeCode : RequestType → Byte
  | .find => 1 | .browse => 2 | .route => 3 | .page => 4 | .cancel => 5 | .release => 6 | .seen => 7 | .sleep => 8
  | .wake => 9

def requestTypeOf (b : Byte) : Option RequestType :=
  match b.toNat with
  | 1 => some .find | 2 => some .browse | 3 => some .route | 4 => some .page | 5 => some .cancel
  | 6 => some .release | 7 => some .seen | 8 => some .sleep | 9 => some .wake
  | _ => none

/-- Whether the parameters after the type byte have the length that fits the request: 5 + p less the type byte for a
FIND whose prefix length byte is p, and the fixed lengths of the others. -/
def paramsFit : RequestType → List Byte → Bool
  | .find, params => decide (4 ≤ params.length) && decide (params.length = 4 + (params.getD 3 0).toNat)
      && decide (params.length ≤ 249)
  | .browse, params => decide (params.length = 3)
  | .route, params => decide (params.length = 6)
  | .page, params => decide (params.length = 1)
  | .seen, params => decide (params.length = 2)
  | .cancel, params | .release, params | .sleep, params | .wake, params => decide (params.length = 0)

/-- Whether a reply fits its kind: a REQUEST holds a type byte of the table and parameters that fit it. -/
def replyFits : StationReply → Bool
  | .empty => true
  | .ready => true
  | .request _ [] => false
  | .request _ (ty :: params) => match requestTypeOf ty with | some t => paramsFit t params | none => false

/-- A reply address byte names station `n`: bits 3-0 hold its number and the byte is not the broadcast (log 11). -/
def addressNames (n : StationNo) (b : Byte) : Bool := b != 0xFF && decide (b.toNat % 16 = n.val)

/-- What the bytes of a reply say, when the reply is good (R165): right start marker, length, check word, address and
kind, and a length that fits the kind. A good reply arrives within its window, which is tested apart. -/
def goodReply (n : StationNo) (message : List Byte) : Option StationReply :=
  match message with
  | start :: address :: kindTag :: len :: rest =>
    let payload := rest.take len.toNat
    let tag : Tag := ⟨kindTag.toNat % 16, by omega⟩
    let content : Option StationReply :=
      match kindTag.toNat / 16 with
      | 8 => if len = 0 then some .empty else none
      | 9 => some (.request tag payload)
      | 10 => if len = 0 then some .ready else none
      | _ => none
    if start = 0xC3 ∧ len.toNat ≤ 250 ∧ rest.length = len.toNat + 2 ∧ addressNames n address = true
        ∧ rest.drop len.toNat = be16 (checkWord (address :: kindTag :: len :: payload)).toNat
    then match content with | some r => if replyFits r then some r else none | none => none
    else none
  | _ => none

/-! ### Replies of the edit port -/

/-- The bytes a REPLY frame returns on MISO: 0x00 during the kind byte, status and overrun, data length, data, and 0x00
beyond it, as many bytes as the host clocks (R189). -/
def replyFrame (r : HeldReply) (clocked : Nat) : List Byte :=
  let whole := [0, byteOf (replyStatusCode r.status + if r.overrun then 128 else 0), byteOf r.data.length] ++ r.data
  (whole ++ List.replicate clocked 0).take clocked

def encodeConfig (c : Configuration) : List Byte :=
  [byteOf c.frameLength, byteOf (noticeShareCode c.noticeShare), byteOf (bitRateCode c.bitRate), byteOf c.faultLimit,
   byteOf c.paceStandard, byteOf c.paceStepFree, byteOf c.paceEvacuation]
    ++ be16 c.penaltyEscalator ++ be16 c.penaltyStair ++ be16 c.penaltyLift
    ++ [byteOf c.escalatorRide, byteOf c.stairClimb, byteOf c.liftWait, byteOf c.liftTravel, byteOf c.hysteresis,
        byteOf c.staleLimit]
    ++ be16 c.alarmLevel ++ [byteOf c.autoTurn] ++ be16 c.effortLimit
    ++ [byteOf c.holdTime, if c.frozen then 1 else 0]
    ++ (c.labels.map fun l => [byteOf l.1, byteOf l.2]).flatten

def encodeListing (number : Nat) (l : Listing) (openNow : Bool) : List Byte :=
  be16 number ++ [byteOf l.floor, byteOf (statusCode l.status)] ++ be16OrNone l.forward
    ++ be16OrNone (l.hours.map Hours.opens) ++ be16OrNone (l.hours.map Hours.closes) ++ be16 l.popularity
    ++ [byteOf (flagsByte [openNow, l.reachStandard, l.reachStepFree])]
    ++ [byteOf l.categories.length] ++ l.categories.map byteOf
    ++ [byteOf l.entrances.length] ++ (l.entrances.map be16).flatten
    ++ [byteOf l.name.length] ++ l.name.map byteOf

/-- The amenity class or exit state byte of a node, 0xFF when it has neither. -/
def nodeExtra : NodeKind → Nat
  | .exit x => exitStateCode x
  | .amenity c => c
  | .junction | .entrance | .kiosk | .landing => 255

def encodeNode (number : Nat) (n : Node) : List Byte :=
  be16 number ++ [byteOf n.floor, byteOf (nodeKindCode n.kind), byteOf (nodeExtra n.kind)] ++ be16 n.x ++ be16 n.y
    ++ [byteOf n.adjacency.length] ++ (n.adjacency.map be16).flatten

def encodeSegment (number : Nat) (g : Segment) : List Byte :=
  be16 number ++ be16 g.endA ++ be16 g.endB ++ be16 g.length
    ++ [byteOf (segmentKindCode g.kind), byteOf (directionCode g.direction), byteOf (segmentStateCode g.state),
        byteOf g.weight]

def encodeLoad (number : Nat) (e : LoadEntry) : List Byte :=
  be16 number ++ [byteOf e.reading, byteOf e.threshold, byteOf e.age, byteOf e.weight, byteOf e.episodes,
    byteOf (freshnessCode e.freshness + if e.congested then 4 else 0)]

def encodeStation (home : Option Nat) (st : Station) : List Byte :=
  [byteOf (stationStateCode st.state)] ++ be16OrNone home ++ be16 st.subscription.toNat ++ be16 st.pendingMask.toNat
    ++ [byteOf st.misses, byteOf st.attempts, byteOf (st.queue.filter fun x => x.content.isSome).length,
        byteOf (st.queue.filter fun x => x.content.isNone).length, byteOf st.overruns, if st.changed then 1 else 0]

/-- An address in a READ STATION CHANGES record: trunk in bits 6-4 and station in bits 3-0. -/
def encodeAddr (a : Addr) : Byte := byteOf a.val

/-- The 69 bytes of READ STATUS (R192, R198). An UNSET minute goes out as 0xFFFF (log 27). -/
def encodeStatus (s : State) : List Byte :=
  [byteOf (serviceCode s.service),
   byteOf (turnStateCode s.ec.turn + 4 * flagsByte [s.ec.wanted, s.ec.rollover])]
    ++ be16 s.ec.report.epoch ++ [byteOf s.ec.report.applied, byteOf s.ec.report.rejected]
    ++ [match s.ec.report.first with | some (_, reason) => byteOf (reasonCode reason) | none => 0]
    ++ be16 (match s.ec.report.first with | some (seq, _) => seq | none => 0)
    ++ be16 s.ec.report.groups.toNat ++ be16 s.ec.report.unreachableStandard ++ be16 s.ec.report.unreachableStepFree
    ++ [byteOf s.cs.queue.length, byteOf s.cs.schedule.length, s.ep.flags.zeroExtend 8, s.ep.mask.zeroExtend 8]
    ++ be16 s.lm.congestedCount ++ [if s.lm.tripped then 1 else 0, if s.cs.clock.set then 1 else 0]
    ++ be16OrNone (if s.cs.clock.set then some s.cs.clock.minute else none) ++ [byteOf s.cs.clock.seconds]
    ++ [byteOf ((if s.eu.latch then 1 else 0) + 2 * unitStateCode s.eu.unit + (if s.eu.asserted then 8 else 0)
        + if s.eu.tree.approximate then 16 else 0)]
    ++ encodeConfig s.config

end Sys2Proof.Machine
end

