-- ==== Sys2Proof/Machine/Timing.lean ====
section
/-! DEFINITION. The timing of a frame (R161): message lengths in bit times, the windows of a frame in microseconds, and
the link timing part of the form check of SET CONFIG (R49). -/

namespace Sys2Proof.Machine

/-- One bit time in microseconds. -/
def bitMicros : BitRate → Nat
  | .k250 => 4 | .k500 => 2 | .m1 => 1

/-- A link message with a payload of `n` bytes in bit times: six bytes of frame, ten bit times a byte. -/
def messageBits (n : Nat) : Nat := 10 * (n + 6)

/-- The reply window in bit times (R165). -/
def windowBits : Nat := 64

/-- The longest request a station can send: a FIND with a prefix of 24 symbols, 29 bytes of payload (log 8). -/
def longestReplyBits : Nat := messageBits 29

/-- A POLL that carries a message of `n` bytes, its reply window and the longest reply it can draw. -/
def pollExchangeBits (n : Nat) : Nat := messageBits (n + 1) + windowBits + longestReplyBits

/-- A PROBE with its reply window and the longest reply. -/
def probeExchangeBits : Nat := messageBits 0 + windowBits + longestReplyBits

/-- The time of the BEACON, always sent at 250 k bit/s. -/
def beaconMicros : Nat := messageBits 10 * 4

/-- The notice share in eighths of the frame. -/
def shareEighths : NoticeShare → Nat
  | .none => 0 | .eighth => 1 | .quarter => 2 | .half => 4

/-- The length of a frame in microseconds. -/
def frameMicros (l : LinkSettings) : Nat := 1000 * l.frameLength

/-- The end of the notice window: notice share times frame length after the frame start. -/
def noticeEnd (l : LinkSettings) : Nat := 125 * shareEighths l.noticeShare * l.frameLength

/-- The start of the poll window: the end of the notice window, or of the BEACON when the notice window is empty. -/
def pollStart (l : LinkSettings) : Nat := max beaconMicros (noticeEnd l)

/-- The settings a frame takes from the configuration in force (R160). -/
def settingsOf (c : Configuration) : LinkSettings :=
  { frameLength := c.frameLength, noticeShare := c.noticeShare, bitRate := c.bitRate, faultLimit := c.faultLimit }

/-- The link timing check of R49: from the start of the poll window to the end of the frame there is room for a POLL
exchange carrying a full find page and drawing the longest request, followed by a PROBE exchange. -/
def linkTimingOk (l : LinkSettings) : Bool :=
  decide (pollStart l + (pollExchangeBits 243 + probeExchangeBits) * bitMicros l.bitRate ≤ frameMicros l)

end Sys2Proof.Machine
end

