-- ==== Sys2Proof/Machine/Operands.lean ====
section
/-! DEFINITION. Reading command payloads and request parameters (R198), with the length checks of R188 and the form
conditions of R3, R38, R49 and R107. -/

namespace Sys2Proof.Machine

/-! ### Fields -/

/-- The byte at place `i` of a payload. -/
def byteAt (p : List Byte) (i : Nat) : Nat := (p.getD i 0).toNat

/-- The two-byte field at place `i`. -/
def wordAt (p : List Byte) (i : Nat) : Nat := 256 * byteAt p i + byteAt p (i + 1)

/-- The two-byte field at place `i`, where 0xFFFF is none. -/
def wordOrNone (p : List Byte) (i : Nat) : Option Nat := if wordAt p i = 65535 then none else some (wordAt p i)

/-- Bit 0 of the byte at place `i`; the other bits are ignored. -/
def bitAt (p : List Byte) (i : Nat) : Bool := byteAt p i % 2 == 1

/-- `n` bytes from place `i`. -/
def bytesAt (p : List Byte) (i n : Nat) : List Nat := (List.range n).map fun j => byteAt p (i + j)

/-- `n` two-byte fields from place `i`. -/
def wordsAt (p : List Byte) (i n : Nat) : List Nat := (List.range n).map fun j => wordAt p (i + 2 * j)

/-! ### Codes -/

def statusOf : Nat → Option ListingStatus
  | 0 => some .opened | 1 => some .closed | 2 => some .closedToday | 3 => some .comingSoon | 4 => some .relocated
  | _ => none

def segmentKindOf : Nat → Option SegmentKind
  | 0 => some .walk | 1 => some .ramp | 2 => some .stair | 3 => some .escalator | 4 => some .lift | _ => none

def directionOf : Nat → Option Direction
  | 0 => some .both | 1 => some .aToB | 2 => some .bToA | _ => none

def segmentStateOf : Nat → Option SegmentState
  | 0 => some .opened | 1 => some .closed | _ => none

def exitStateOf : Nat → Option ExitState
  | 0 => some .usable | 1 => some .blocked | _ => none

def noticeShareOf : Nat → Option NoticeShare
  | 0 => some .none | 1 => some .eighth | 2 => some .quarter | 3 => some .half | _ => none

def bitRateOf : Nat → Option BitRate
  | 0 => some .k250 | 1 => some .k500 | 2 => some .m1 | _ => none

/-- A node kind with its amenity class or exit state byte: supplied for AMENITY and EXIT, 0xFF for the others (R38). -/
def nodeKindOf (code extra : Nat) : Option NodeKind :=
  match code with
  | 0 => if extra = 255 then some .junction else none
  | 1 => if extra = 255 then some .entrance else none
  | 2 => if extra = 255 then some .kiosk else none
  | 3 => (exitStateOf extra).map .exit
  | 4 => if extra = 255 then some .landing else none
  | 5 => if extra ≤ 15 then some (.amenity extra) else none
  | _ => none

/-- A station address of a trunk and a station number in range (R175). -/
def addrOfBytes (trunk station : Nat) : Option Addr :=
  if h : trunk < 6 ∧ station < 16 then some ⟨16 * trunk + station, by omega⟩ else none

/-- The eleven edits. -/
inductive EditKind where
  | putListing | setListingStatus | retireListing | putNode | removeNode | putSegment | setSegmentState
  | removeSegment | setExit | setHome | setConfig
  deriving DecidableEq, Repr

/-- The command code 0x10 to 0x1A of an edit. -/
def editKindOf (code : Nat) : Option EditKind :=
  match code with
  | 0x10 => some .putListing | 0x11 => some .setListingStatus | 0x12 => some .retireListing | 0x13 => some .putNode
  | 0x14 => some .removeNode | 0x15 => some .putSegment | 0x16 => some .setSegmentState | 0x17 => some .removeSegment
  | 0x18 => some .setExit | 0x19 => some .setHome | 0x1A => some .setConfig
  | _ => none

/-! ### Form conditions -/

/-- No two entries of a list are equal. -/
def distinct : List Nat → Bool
  | [] => true
  | x :: rest => !rest.contains x && distinct rest

/-- No two spaces stand next to each other (R4). -/
def noDoubleSpace : List Nat → Bool
  | 0 :: 0 :: _ => false
  | _ :: rest => noDoubleSpace rest
  | [] => true

/-- A valid name key (R4). -/
def nameValid (name : List Nat) : Bool :=
  decide (1 ≤ name.length) && decide (name.length ≤ 24) && name.all (fun x => decide (x ≤ 39))
    && name.head? != some 0 && name.getLast? != some 0 && noDoubleSpace name

/-- Status and forward agree (R3): RELOCATED carries a forward to another listing, any other status none. -/
def forwardFits (number : Nat) (status : ListingStatus) (forward : Option Nat) : Bool :=
  match status, forward with
  | .relocated, some f => decide (1 ≤ f) && decide (f ≤ 1023) && f != number
  | .relocated, none => false
  | _, some _ => false
  | _, none => true

/-- A listing number (R1). -/
def listingNumber (n : Nat) : Bool := decide (1 ≤ n) && decide (n ≤ 1023)

/-- Both minutes lie in the day and differ (R3). -/
def hoursFit : Option Hours → Bool
  | none => true
  | some h => decide (h.opens ≤ 1439) && decide (h.closes ≤ 1439) && h.opens != h.closes

/-- The form conditions of PUT LISTING (R3). -/
def listingFormOk (number : Nat) (f : ListingForm) : Bool :=
  listingNumber number && nameValid f.name
    && decide (1 ≤ f.categories.length) && decide (f.categories.length ≤ 4)
    && f.categories.all (fun c => decide (c ≤ 63)) && distinct f.categories
    && decide (f.floor ≤ 7)
    && decide (1 ≤ f.entrances.length) && decide (f.entrances.length ≤ 4)
    && f.entrances.all (fun n => decide (n ≤ 2047)) && distinct f.entrances
    && forwardFits number f.status f.forward && hoursFit f.hours

/-- The form conditions of PUT SEGMENT (R38); kind, direction and state are in range by their types. -/
def segmentFormOk (number : Nat) (f : SegmentForm) : Bool :=
  decide (number ≤ 4095) && decide (f.endA ≤ 2047) && decide (f.endB ≤ 2047) && f.endA != f.endB
    && decide (1 ≤ f.length) && decide (f.length ≤ 4095)

/-- The form conditions of PUT NODE (R38); the kind with its class or exit state is in range by its type. -/
def nodeFormOk (number : Nat) (f : NodeForm) : Bool :=
  decide (number ≤ 2047) && decide (f.floor ≤ 7) && decide (f.x ≤ 32767) && decide (f.y ≤ 32767)

/-- The ranges of R196 and the link timing of R49. -/
def configOk (c : Configuration) : Bool :=
  decide (2 ≤ c.frameLength) && decide (c.frameLength ≤ 20)
    && decide (2 ≤ c.faultLimit) && decide (c.faultLimit ≤ 15)
    && [c.paceStandard, c.paceStepFree, c.paceEvacuation].all (fun v => decide (40 ≤ v) && decide (v ≤ 250))
    && [c.penaltyEscalator, c.penaltyStair, c.penaltyLift].all (fun v => decide (v ≤ 1023))
    && [c.escalatorRide, c.stairClimb, c.liftWait, c.liftTravel].all (fun v => decide (v ≤ 255))
    && decide (c.hysteresis ≤ 63) && decide (c.staleLimit ≤ 255) && decide (c.alarmLevel ≤ 4095)
    && (c.autoTurn == 0 || (decide (5 ≤ c.autoTurn) && decide (c.autoTurn ≤ 255)))
    && decide (64 ≤ c.effortLimit) && decide (c.effortLimit ≤ 2048)
    && decide (2 ≤ c.holdTime) && decide (c.holdTime ≤ 60)
    && decide (c.labels.length = 8) && c.labels.all (fun l => decide (l.1 ≤ 39) && decide (l.2 ≤ 39))
    && linkTimingOk (settingsOf c)

/-! ### Edit payloads -/

/-- Whether an edit payload has the length that R198 gives it, a count inside it agreeing with the length. -/
def editFits (kind : EditKind) (p : List Byte) : Bool :=
  match kind with
  | .putListing =>
    let c := byteAt p 11
    let e := byteAt p (12 + c)
    let k := byteAt p (13 + c + 2 * e)
    decide (p.length = 14 + c + 2 * e + k)
  | .setListingStatus => decide (p.length = 6)
  | .retireListing => decide (p.length = 3)
  | .putNode => decide (p.length = 10)
  | .removeNode => decide (p.length = 3)
  | .putSegment => decide (p.length = 12)
  | .setSegmentState => decide (p.length = 4)
  | .removeSegment => decide (p.length = 3)
  | .setExit => decide (p.length = 4)
  | .setHome => decide (p.length = 5)
  | .setConfig => decide (p.length = 43)

/-- The fields of a PUT LISTING payload; none when the status byte is no code. -/
def listingFormOf (p : List Byte) : Option ListingForm :=
  let c := byteAt p 11
  let e := byteAt p (12 + c)
  let k := byteAt p (13 + c + 2 * e)
  (statusOf (byteAt p 4)).map fun status =>
    { name := bytesAt p (14 + c + 2 * e) k
      categories := bytesAt p 12 c
      floor := byteAt p 3
      entrances := wordsAt p (13 + c) e
      status := status
      forward := wordOrNone p 5
      hours := if wordAt p 7 = 65535 ∧ wordAt p 9 = 65535 then none
               else some { opens := wordAt p 7, closes := wordAt p 9 } }

/-- The fields of a SET CONFIG payload; none when a code byte is no code. -/
def configOf (p : List Byte) : Option Configuration :=
  match noticeShareOf (byteAt p 2), bitRateOf (byteAt p 3) with
  | some share, some rate =>
    some
      { frameLength := byteAt p 1, noticeShare := share, bitRate := rate, faultLimit := byteAt p 4
        paceStandard := byteAt p 5, paceStepFree := byteAt p 6, paceEvacuation := byteAt p 7
        penaltyEscalator := wordAt p 8, penaltyStair := wordAt p 10, penaltyLift := wordAt p 12
        escalatorRide := byteAt p 14, stairClimb := byteAt p 15, liftWait := byteAt p 16, liftTravel := byteAt p 17
        hysteresis := byteAt p 18, staleLimit := byteAt p 19, alarmLevel := wordAt p 20, autoTurn := byteAt p 22
        effortLimit := wordAt p 23, holdTime := byteAt p 25, frozen := bitAt p 26
        labels := (List.range 8).map fun f => (byteAt p (27 + 2 * f), byteAt p (28 + 2 * f)) }
  | _, _ => none

/-- The edit a payload carries, or none when it fails its form conditions (R3, R38, R49). -/
def editOf (kind : EditKind) (p : List Byte) : Option Edit :=
  let number := wordAt p 1
  match kind with
  | .putListing =>
    (listingFormOf p).bind fun f => if listingFormOk number f then some (.putListing number f) else none
  | .setListingStatus =>
    (statusOf (byteAt p 3)).bind fun status =>
      if listingNumber number && forwardFits number status (wordOrNone p 4)
      then some (.setListingStatus number status (wordOrNone p 4)) else none
  | .retireListing => if listingNumber number then some (.retireListing number) else none
  | .putNode =>
    (nodeKindOf (byteAt p 4) (byteAt p 5)).bind fun kind =>
      let f : NodeForm := { floor := byteAt p 3, kind := kind, x := wordAt p 6, y := wordAt p 8 }
      if nodeFormOk number f then some (.putNode number f) else none
  | .removeNode => if number ≤ 2047 then some (.removeNode number) else none
  | .putSegment =>
    match segmentKindOf (byteAt p 9), directionOf (byteAt p 10), segmentStateOf (byteAt p 11) with
    | some kind, some direction, some state =>
      let f : SegmentForm := { endA := wordAt p 3, endB := wordAt p 5, length := wordAt p 7, kind := kind,
                               direction := direction, state := state }
      if segmentFormOk number f then some (.putSegment number f) else none
    | _, _, _ => none
  | .setSegmentState =>
    (segmentStateOf (byteAt p 3)).bind fun state =>
      if number ≤ 4095 then some (.setSegmentState number state) else none
  | .removeSegment => if number ≤ 4095 then some (.removeSegment number) else none
  | .setExit =>
    (exitStateOf (byteAt p 3)).bind fun state => if number ≤ 2047 then some (.setExit number state) else none
  | .setHome =>
    (addrOfBytes (byteAt p 1) (byteAt p 2)).bind fun a =>
      match wordOrNone p 3 with
      | none => some (.setHome a none)
      | some n => if n ≤ 2047 then some (.setHome a (some n)) else none
  | .setConfig => (configOf p).bind fun c => if configOk c then some (.setConfig c) else none

/-- The urgent flag of an edit payload (R198). -/
def urgentOf (p : List Byte) : Bool := bitAt p 0

/-- The pairs of a LOAD payload: segment and reading (R85). -/
def loadPairs (p : List Byte) : List (Nat × Nat) :=
  (List.range (p.length / 3)).map fun i => (wordAt p (3 * i), byteAt p (3 * i + 2))

/-- The bits of a two-byte group set that are assigned (R198). -/
def groupsOf (n : Nat) : Groups := BitVec.ofNat 12 n

/-! ### Request parameters (R107, R198) -/

/-- An optional field of a lookup: given when its flag bit is set (R198). -/
def givenIf (flags bit value : Nat) : Option Nat := if flags / 2 ^ bit % 2 = 1 then some value else none

/-- An optional field lies within its range (R107). -/
def withinOr (limit : Nat) : Option Nat → Bool
  | none => true
  | some n => decide (n ≤ limit)

/-- The conditions for a good ROUTE (R107). -/
def routeGood (target : Target) (profile : Profile) (origin : Option Nat) : Bool :=
  (match target with
    | .listing n => decide (1 ≤ n) && decide (n ≤ 1023)
    | .node n => decide (n ≤ 2047)
    | .amenity c => decide (c ≤ 15))
    && profile != .evacuation && withinOr 2047 origin

/-- The conditions for a good FIND or BROWSE (R107). -/
def lookupGood (l : Lookup) : Bool :=
  (match l.typed with
    | none => l.category.isSome
    | some symbols => decide (1 ≤ symbols.length) && decide (symbols.length ≤ 24)
        && symbols.all (fun x => decide (x ≤ 39)))
    && withinOr 63 l.category && withinOr 7 l.floor

/-- The query of FIND parameters, or none for BAD_REQUEST. -/
def findQueryOf (p : List Byte) : Option Query :=
  let flags := byteAt p 0
  let l : Lookup :=
    { typed := some (bytesAt p 4 (byteAt p 3)), category := givenIf flags 0 (byteAt p 1),
      floor := givenIf flags 1 (byteAt p 2), openOnly := flags / 4 % 2 == 1 }
  if lookupGood l then some (.find l) else none

/-- The query of BROWSE parameters, or none for BAD_REQUEST. -/
def browseQueryOf (p : List Byte) : Option Query :=
  let flags := byteAt p 0
  let l : Lookup :=
    { typed := none, category := some (byteAt p 1), floor := givenIf flags 1 (byteAt p 2),
      openOnly := flags / 4 % 2 == 1 }
  if lookupGood l then some (.browse l) else none

def targetOf (code value : Nat) : Option Target :=
  match code with
  | 0 => some (.listing value) | 1 => some (.node value) | 2 => some (.amenity value) | _ => none

def profileOf : Nat → Option Profile
  | 0 => some .standard | 1 => some .stepFree | 2 => some .evacuation | _ => none

/-- The query of ROUTE parameters, or none for BAD_REQUEST. -/
def routeQueryOf (p : List Byte) : Option Query :=
  match targetOf (byteAt p 0) (wordAt p 1), profileOf (byteAt p 3) with
  | some target, some profile =>
    if routeGood target profile (wordOrNone p 4) then some (.route target profile (wordOrNone p 4)) else none
  | _, _ => none

/-! ### Command frames (R188) -/

/-- The payload of a command frame: as many bytes as the length byte counts; bytes beyond it are ignored. -/
def payloadOf (frame : List Byte) : List Byte :=
  match frame with
  | len :: rest => rest.take len.toNat
  | [] => []

/-- Check 1 of R188: the frame holds its length byte and the payload the length byte gives. -/
def frameWhole (frame : List Byte) : Bool :=
  match frame with
  | len :: rest => decide (len.toNat ≤ rest.length)
  | [] => false

/-- Check 3 of R188: the length byte is at most 250 and the length fits the command. -/
def lengthFits (fits : List Byte → Bool) (frame : List Byte) : Bool :=
  (match frame with | len :: _ => decide (len.toNat ≤ 250) | [] => false) && fits (payloadOf frame)

/-- Checks 1 and 3 of R188 for the frame of a command of the part, the first that fails. -/
def frameRefusal (fits : List Byte → Bool) (frame : List Byte) : Option Reason :=
  if !frameWhole frame then some .badLength else if !lengthFits fits frame then some .badLength else none

/-- The frame of a payload, after its kind byte: length byte and payload. -/
def frameOf (payload : List Byte) : List Byte := byteOf payload.length :: payload

/-- A SCHEDULE payload fits when the edit it carries fits its kind; an edit kind that is not one of the eleven has no
length to fit and passes to the form check (R188). -/
def scheduleFits (p : List Byte) : Bool :=
  match p with
  | _ :: _ :: kind :: rest => match editKindOf kind.toNat with | some k => editFits k rest | none => true
  | _ => false

end Sys2Proof.Machine
end

