-- ==== Sys2Proof/Machine/Graph.lean ====
section
/-! DEFINITION. The Walkway Graph Store (chapter 2): adjacency, profile permission, reachability floods, and what the
store does when a graph edit passes its application tests. -/

namespace Sys2Proof.Machine

/-! ### Nodes and segments -/

/-- The floor of a node number. -/
def floorOf (wg : Graph) (n : Nat) : Nat := ((tableGet wg.nodes n).map fun x => x.floor).getD 0

/-- The other end of a segment. -/
def otherEnd (g : Segment) (n : Nat) : Nat := if g.endA = n then g.endB else g.endA

/-- A segment names the node as an end. -/
def touches (g : SegmentForm) (n : Nat) : Bool := g.endA == n || g.endB == n

/-- A horizontal kind (R30). -/
def horizontal : SegmentKind → Bool
  | .walk | .ramp => true
  | .stair | .escalator | .lift => false

def isExit : NodeKind → Bool
  | .exit _ => true
  | .junction | .entrance | .kiosk | .landing | .amenity _ => false

/-! ### Profile permission (R37) -/

/-- The profile allows the kind. -/
def kindAllowed : Profile → SegmentKind → Bool
  | _, .walk | _, .ramp => true
  | .standard, .stair | .evacuation, .stair => true
  | .stepFree, .stair => false
  | .standard, .escalator | .evacuation, .escalator => true
  | .stepFree, .escalator => false
  | .standard, .lift | .stepFree, .lift => true
  | .evacuation, .lift => false

/-- The direction of the segment allows a move that starts at node `p` (R31). -/
def directionAllows (g : Segment) (p : Nat) : Bool :=
  match g.direction with
  | .both => true
  | .aToB => g.endA == p
  | .bToA => g.endB == p

/-- A move along an in-use segment from `p` to `q` is permitted in the profile (R37). -/
def permitted (profile : Profile) (g : Segment) (p q : Nat) : Bool :=
  ((g.endA == p && g.endB == q) || (g.endA == q && g.endB == p))
    && g.state == .opened && kindAllowed profile g.kind
    && (directionAllows g p || (profile == .evacuation && g.kind == .escalator))

/-! ### Adjacency (R28) -/

/-- The adjacency list of a node changed by `f`. -/
def updateAdjacency (f : List Nat → List Nat) (n : Nat) (nodes : List (Nat × Node)) : List (Nat × Node) :=
  tableUpdate nodes n fun x => { x with adjacency := f x.adjacency }

/-- A segment inserted into the adjacency list of a node at its place in ascending order. -/
def joinNode (segment n : Nat) (nodes : List (Nat × Node)) : List (Nat × Node) :=
  updateAdjacency (insertNat segment) n nodes

/-- A segment removed from the adjacency list of a node. -/
def leaveNode (segment n : Nat) (nodes : List (Nat × Node)) : List (Nat × Node) :=
  updateAdjacency (removeNat segment) n nodes

/-- A segment removed from the list of an old end unless it is also a new end (R40). -/
def leaveUnless (segment n : Nat) (f : SegmentForm) (nodes : List (Nat × Node)) : List (Nat × Node) :=
  if touches f n then nodes else leaveNode segment n nodes

/-- The number of segments a node touches. -/
def degree (wg : Graph) (n : Nat) : Nat := ((tableGet wg.nodes n).map fun x => x.adjacency.length).getD 0

/-! ### Graph edits (R39 to R42) -/

/-- PUT NODE: an in-use node keeps its adjacency list, a new one starts with none (R39). -/
def putNode (wg : Graph) (n : Nat) (f : NodeForm) : Graph :=
  let adjacency := ((tableGet wg.nodes n).map fun x => x.adjacency).getD []
  { wg with nodes := tablePut wg.nodes n { toNodeForm := f, adjacency := adjacency } }

/-- REMOVE NODE (R39). -/
def removeNode (wg : Graph) (n : Nat) : Graph := { wg with nodes := tableErase wg.nodes n }

/-- PUT SEGMENT on a free entry (R40). -/
def fillSegment (wg : Graph) (n : Nat) (f : SegmentForm) : Graph :=
  { wg with
    segments := tablePut wg.segments n { toSegmentForm := f, weight := 16 }
    nodes := joinNode n f.endB (joinNode n f.endA wg.nodes) }

/-- PUT SEGMENT on an in-use entry: the sampled weight is kept and the lists follow the ends (R40). -/
def replaceSegment (wg : Graph) (n : Nat) (old : Segment) (f : SegmentForm) : Graph :=
  { wg with
    segments := tablePut wg.segments n { old with toSegmentForm := f }
    nodes := joinNode n f.endB (joinNode n f.endA
      (leaveUnless n old.endB f (leaveUnless n old.endA f wg.nodes))) }

/-- SET SEGMENT STATE (R41). -/
def setSegmentState (wg : Graph) (n : Nat) (old : Segment) (state : SegmentState) : Graph :=
  { wg with segments := tablePut wg.segments n { old with state := state } }

/-- REMOVE SEGMENT (R41). -/
def removeSegment (wg : Graph) (n : Nat) (old : Segment) : Graph :=
  { wg with
    segments := tableErase wg.segments n
    nodes := leaveNode n old.endB (leaveNode n old.endA wg.nodes) }

/-- SET EXIT (R42). -/
def setExit (wg : Graph) (n : Nat) (old : Node) (state : ExitState) : Graph :=
  { wg with nodes := tablePut wg.nodes n { old with kind := .exit state } }

/-- SET HOME (R42). -/
def setHome (wg : Graph) (a : Addr) (node : Option Nat) : Graph :=
  { wg with homes := wg.homes.set a.val node a.isLt }

/-- Some station address holds the node as its home (R64). -/
def isHome (wg : Graph) (n : Nat) : Bool := wg.homes.toList.contains (some n)

/-- The group of a floor. -/
def floorGroup (wg : Graph) (n : Nat) : Groups := groupBit (floorOf wg n)

/-- The groups of the floors of both ends of a segment (R43). -/
def endGroups (wg : Graph) (f : SegmentForm) : Groups := floorGroup wg f.endA ||| floorGroup wg f.endB

/-- Every in-use segment's sampled weight set to a weight given by its number (R66). -/
def sampleWeights (weight : Nat → Nat) (wg : Graph) : Graph :=
  { wg with segments := tableMap (fun n g => { g with weight := weight n }) wg.segments }

/-! ### Reachability floods (R68) -/

/-- The nodes that one permitted move along a segment reaches from a marked node and that are not marked yet. -/
def reachedBy (profile : Profile) (marked : List Nat) (g : Segment) : List Nat :=
  (if marked.contains g.endA && permitted profile g g.endA g.endB then [g.endB] else [])
    ++ (if marked.contains g.endB && permitted profile g g.endB g.endA then [g.endA] else [])

/-- One round of a flood over the whole segment table. -/
def floodRound (profile : Profile) (segments : List (Nat × Segment)) (marked : List Nat) : List Nat :=
  segments.foldl (fun acc p => (reachedBy profile acc p.2).foldl (fun m n => insertNat n m) acc) marked

/-- Rounds until no further node can be marked, at most `fuel` of them. -/
def floodFrom (profile : Profile) (segments : List (Nat × Segment)) : Nat → List Nat → List Nat
  | 0, marked => marked
  | fuel + 1, marked =>
    let next := floodRound profile segments marked
    if next = marked then marked else floodFrom profile segments fuel next

/-- The source nodes: every node that is the present home of some address, once (R68). -/
def floodSources (wg : Graph) : List Nat := sortNat (wg.homes.toList.filterMap id)

/-- The nodes a flood marks. Each round but the last marks a node, so 2048 rounds mark all that can be reached. -/
def flood (profile : Profile) (wg : Graph) : List Nat :=
  floodFrom profile wg.segments nodeCapacity (floodSources wg)

end Sys2Proof.Machine
end

