-- ==== Sys2Proof/Machine/Cost.lean ====
section
/-! DEFINITION. Route cost and time arithmetic (chapter 5): segment cost, walk and vertical seconds, minutes, and the
turn classes. -/

namespace Sys2Proof.Machine

/-- The base cost floor(L × W / 16) (R91). -/
def baseCost (length weight : Nat) : Nat := length * weight / 16

/-- The floor span: the difference of the end floors without sign (R92). -/
def floorSpan (a b : Nat) : Nat := max a b - min a b

/-- The vertical penalty (R93). A kind that the profile does not permit is not costed. -/
def verticalPenalty (c : Configuration) (profile : Profile) (kind : SegmentKind) (d : Nat) : Nat :=
  match kind with
  | .walk | .ramp => 0
  | .stair => c.penaltyStair * d
  | .escalator => (match profile with | .evacuation => c.penaltyStair | _ => c.penaltyEscalator) * d
  | .lift => c.penaltyLift + 16 * d

/-- The floor span of a segment in a graph. -/
def spanOf (wg : Graph) (g : Segment) : Nat := floorSpan (floorOf wg g.endA) (floorOf wg g.endB)

/-- The cost of a permitted move along a segment, in either direction (R90). -/
def segmentCost (c : Configuration) (profile : Profile) (wg : Graph) (g : Segment) : Nat :=
  baseCost g.length g.weight + verticalPenalty c profile g.kind (spanOf wg g)

/-! ### Time -/

/-- `n / d` rounded up. -/
def ceilDiv (n d : Nat) : Nat := (n + d - 1) / d

/-- The pace of a profile (R97). -/
def paceOf (c : Configuration) : Profile → Nat
  | .standard => c.paceStandard
  | .stepFree => c.paceStepFree
  | .evacuation => c.paceEvacuation

/-- The walk seconds of a horizontal length in dm (R97). -/
def walkSeconds (c : Configuration) (profile : Profile) (length : Nat) : Nat := ceilDiv (length * 10) (paceOf c profile)

/-- One segment of a path: its kind, length and floor span, and the node it leads to. -/
structure Leg where
  kind : SegmentKind
  length : Nat
  span : Nat
  node : Nat
  deriving DecidableEq, Repr

/-- The horizontal length of a path (R97). -/
def horizontalLength (legs : List Leg) : Nat :=
  (legs.map fun l => if horizontal l.kind then l.length else 0).sum

/-- The vertical seconds of a path: a rate per floor, and one lift wait for each run of lifts (R98). `before` is the
kind of the segment before. -/
def verticalSeconds (c : Configuration) (profile : Profile) : Option SegmentKind → List Leg → Nat
  | _, [] => 0
  | before, l :: rest =>
    (match l.kind with
      | .walk | .ramp => 0
      | .stair => c.stairClimb * l.span
      | .escalator => (match profile with | .evacuation => c.stairClimb | _ => c.escalatorRide) * l.span
      | .lift => (if before = some .lift then 0 else c.liftWait) + c.liftTravel * l.span)
    + verticalSeconds c profile (some l.kind) rest

/-- The total seconds, saturating at 65535 (R99). -/
def totalSeconds (c : Configuration) (profile : Profile) (legs : List Leg) : Nat :=
  min 65535 (walkSeconds c profile (horizontalLength legs) + verticalSeconds c profile none legs)

/-- The minutes of a total, and whether they were clamped at 99 (R99). -/
def minutesOf (seconds : Nat) : Nat × Bool :=
  let m := ceilDiv seconds 60
  if 99 < m then (99, true) else (m, false)

/-! ### Turn classes -/

/-- The classes of R101. -/
inductive TurnClass where
  | straight | back | left | right
  deriving DecidableEq, Repr

/-- The turn class of three successive points (R100, R101). -/
def turnClass (px py nx ny qx qy : Int) : TurnClass :=
  let ux := nx - px
  let uy := ny - py
  let vx := qx - nx
  let vy := qy - ny
  let cross := ux * vy - uy * vx
  let dot := ux * vx + uy * vy
  if (ux = 0 ∧ uy = 0) ∨ (vx = 0 ∧ vy = 0) then .straight
  else if 8 * cross.natAbs ≤ 3 * dot then .straight
  else if 8 * cross.natAbs ≤ -(3 * dot) then .back
  else if 0 < cross then .left
  else .right

/-- The coordinates of a node. -/
def pointOf (wg : Graph) (n : Nat) : Int × Int :=
  match tableGet wg.nodes n with
  | some x => ((x.x : Int), (x.y : Int))
  | none => (0, 0)

/-- The turn class at a node between its predecessor and its successor on a path. -/
def classAt (wg : Graph) (before here after : Nat) : TurnClass :=
  let p := pointOf wg before
  let n := pointOf wg here
  let q := pointOf wg after
  turnClass p.1 p.2 n.1 n.2 q.1 q.2

end Sys2Proof.Machine
end

