-- ==== Sys2Proof/Machine/Directory.lean ====
section
/-! DEFINITION. The Directory Store (chapter 1): directory order, the name index, opening hours, popularity, and what
the store does when a listing edit passes its application tests. -/

namespace Sys2Proof.Machine

/-! ### Directory order (R5) -/

/-- Key `a` comes before key `b`: symbol by symbol on ordinal, a proper prefix first. -/
def keyBefore : List Nat → List Nat → Bool
  | [], [] => false
  | [], _ :: _ => true
  | _ :: _, [] => false
  | x :: xs, y :: ys => if x < y then true else if y < x then false else keyBefore xs ys

/-- Directory order of (key, number): by key, then by number. -/
def directoryBefore (a b : List Nat × Nat) : Bool :=
  if keyBefore a.1 b.1 then true else if keyBefore b.1 a.1 then false else decide (a.2 < b.2)

/-- The name key of a listing number, empty for a free slot. -/
def nameOf (ds : Directory) (n : Nat) : List Nat := ((tableGet ds.listings n).map fun l => l.name).getD []

/-! ### The name index (R16, R17) -/

/-- A number placed before the first entry that orders after it. `key` gives the name key of a number. -/
def indexInsert (key : Nat → List Nat) (n : Nat) : List Nat → List Nat
  | [] => [n]
  | m :: rest => if directoryBefore (key n, n) (key m, m) then n :: m :: rest else m :: indexInsert key n rest

/-- A number taken out; the entries after it close up. -/
def indexRemove (n : Nat) (index : List Nat) : List Nat := removeNat n index

/-! ### Opening hours (R10) -/

/-- The hours hold minute `m`. -/
def hoursHold (h : Hours) (m : Nat) : Bool :=
  if h.opens < h.closes then decide (h.opens ≤ m) && decide (m < h.closes)
  else decide (h.opens ≤ m) || decide (m < h.closes)

/-- A listing is open now at minute `m` under a clock that is SET or not. -/
def openNow (l : Listing) (clockSet : Bool) (m : Nat) : Bool :=
  l.status == .opened && (match l.hours with | none => true | some h => !clockSet || hoursHold h m)

/-- A listing number is open now; a free slot is not. -/
def numberOpenNow (ds : Directory) (n : Nat) (clockSet : Bool) (m : Nat) : Bool :=
  match tableGet ds.listings n with
  | some l => openNow l clockSet m
  | none => false

/-! ### Popularity (R18 to R20) -/

/-- A credit of one, saturating at 65535 (R18). -/
def credit (l : Listing) : Listing := { l with popularity := min 65535 (l.popularity + 1) }

/-- The halving of rollover work (R19). -/
def halveCount (l : Listing) : Listing := { l with popularity := l.popularity / 2 }

/-- The count cleared (R20). -/
def clearCount (l : Listing) : Listing := { l with popularity := 0 }

/-! ### Listing edits -/

/-- The fields as the store holds them: categories and entrances ascending (R3, R12). -/
def storedForm (f : ListingForm) : ListingForm :=
  { f with categories := sortNat f.categories, entrances := sortNat f.entrances }

/-- A slot of the listing table. -/
def putListingAt (ds : Directory) (n : Nat) (l : Listing) : Directory :=
  { ds with listings := tablePut ds.listings n l }

/-- PUT LISTING on a free slot (R12). -/
def fillListing (ds : Directory) (n : Nat) (f : ListingForm) : Directory :=
  let ds' := putListingAt ds n { toListingForm := storedForm f, popularity := 0, reachStandard := false,
                                 reachStepFree := false }
  { ds' with nameIndex := indexInsert (nameOf ds') n ds.nameIndex }

/-- PUT LISTING on an in-use slot (R13). The number moves in the index only when the key has changed. -/
def replaceListing (ds : Directory) (n : Nat) (old : Listing) (f : ListingForm) : Directory :=
  let ds' := putListingAt ds n { old with toListingForm := storedForm f }
  if f.name = old.name then ds'
  else { ds' with nameIndex := indexInsert (nameOf ds') n (indexRemove n ds.nameIndex) }

/-- The groups a replacement raises: 8 for any changed field, 9 for a change of status or of the forward (R13). -/
def replaceGroups (old : Listing) (f : ListingForm) : Groups :=
  (if old.toListingForm = storedForm f then 0 else groupBit 8)
    ||| (if old.status ≠ f.status ∨ old.forward ≠ f.forward then groupBit 9 else 0)

/-- SET LISTING STATUS (R14). -/
def setStatus (ds : Directory) (n : Nat) (old : Listing) (status : ListingStatus) (forward : Option Nat) : Directory :=
  putListingAt ds n { old with status := status, forward := forward }

/-- The group SET LISTING STATUS raises: 9 when the status or the forward changed (R14). -/
def statusGroups (old : Listing) (status : ListingStatus) (forward : Option Nat) : Groups :=
  if old.status ≠ status ∨ old.forward ≠ forward then groupBit 9 else 0

/-- RETIRE LISTING (R15). -/
def retireListing (ds : Directory) (n : Nat) : Directory :=
  { listings := tableErase ds.listings n, nameIndex := indexRemove n ds.nameIndex }

/-- Some in-use listing names the node as an entrance (R64). -/
def namedAsEntrance (ds : Directory) (node : Nat) : Bool := ds.listings.any fun p => p.2.entrances.contains node

/-! ### Rollover work and relocation repair -/

/-- CLOSED_TODAY becomes OPEN (R62). -/
def reopen (l : Listing) : Listing := if l.status = .closedToday then { l with status := .opened } else l

/-- A RELOCATED listing whose forward names a free slot becomes CLOSED and loses its forward (R8). -/
def repairListing (listings : List (Nat × Listing)) (l : Listing) : Listing :=
  match l.status, l.forward with
  | .relocated, some f => if inUse listings f then l else { l with status := .closed, forward := none }
  | _, _ => l

/-- Relocation repair. It looks one forward deep and frees no slot, so the listings do not affect one another (R8). -/
def repairAll (listings : List (Nat × Listing)) : List (Nat × Listing) :=
  tableMap (fun _ l => repairListing listings l) listings

end Sys2Proof.Machine
end

