-- ==== Sys2Proof/Machine/Flags.lean ====
section
/-! DEFINITION. The attention flags, their mask and the output pins (R191, R197). -/

namespace Sys2Proof.Machine

/-- TURN_DONE, bit 0 (R198). -/
def turnDone : AttnFlags := 1
/-- STATION_CHANGE, bit 1 (R198). -/
def stationChange : AttnFlags := 2
/-- CONGESTION_ALARM, bit 2 (R198). -/
def congestionAlarm : AttnFlags := 4
/-- STALE_READING, bit 3 (R198). -/
def staleReading : AttnFlags := 8
/-- EVAC_CHANGE, bit 4 (R198). -/
def evacChange : AttnFlags := 16
/-- SCHEDULE_DUE, bit 5 (R198). -/
def scheduleDue : AttnFlags := 32

/-- Setting a flag; one that is set stays set, whatever the mask holds (R191). -/
def raiseFlag (f : AttnFlags) (s : State) : State := { s with ep := { s.ep with flags := s.ep.flags ||| f } }

/-- The named flags cleared (R191). -/
def clearFlags (f : AttnFlags) (s : State) : State := { s with ep := { s.ep with flags := s.ep.flags &&& ~~~f } }

/-- ATTN is asserted, driven low: a flag is set and enabled, and the part is not held in reset (R191). -/
def attnAsserted (s : State) : Bool := !s.resetHeld && (s.ep.flags &&& s.ep.mask) != 0

/-- The level of the ATTN pin: low while asserted (R191, R197). -/
def attnPinHigh (s : State) : Bool := !attnAsserted s

/-! ### The other output pins (R197) -/

/-- A logic level. -/
def levelOf (bit : Bool) : PinLevel := if bit then .high else .low

/-- The level of the ATTN pin (R197). -/
def attnPin (s : State) : PinLevel := levelOf (attnPinHigh s)

/-- The MISO pin. `bit` is the place of a bit in the last frame, most significant bit first, and none while SEL is high,
as it is again beyond the bytes of the frame. MISO is high-impedance then (R188, R197). While the part is held reset it
ignores a frame and no rule gives the level (log 36). -/
def misoPin (s : State) (bit : Option Nat) : PinLevel :=
  match bit with
  | none => .highImpedance
  | some i =>
    if s.resetHeld then Config.misoInReset
    else match s.ep.miso[i / 8]? with
      | some b => levelOf (b.getMsbD (i % 8))
      | none => .highImpedance

/-- The driver enable TRKn.DE of a trunk; `sending` while a message of the part goes out on it. The drivers are disabled
in reset (R194), enabled to send, and disabled while the trunk listens for a reply (R165). Between messages no rule
gives the level (log 36). -/
def driverEnabled (s : State) (t : TrunkNo) (sending : Bool) : Bool :=
  !s.resetHeld && (sending || ((trunkAt s t).exchange.isNone && Config.idleDriver t))

/-- A state change of a station by a way of the state table sets its change flag and STATION_CHANGE (R167). A command
or event that leaves the state as it was sets no flag. -/
def changeState (a : Addr) (new : StationState) (s : State) : State :=
  if (stationAt s a).state = new then s
  else raiseFlag stationChange (updateStation a (fun st => { st with state := new, changed := true }) s)

end Sys2Proof.Machine
end

