-- ==== Sys2Proof/Machine/Query.lean ====
section
/-! DEFINITION. The query table (chapter 6): finding, freeing, halting and completing live entries. -/

namespace Sys2Proof.Machine

/-- Whether an entry is the one of a station and tag. -/
def isEntry (a : Addr) (tag : Tag) (e : QueryEntry) : Bool := e.addr == a && e.tag == tag

/-- The live entry of a station with a tag (R104). -/
def findEntry (qt : QueryTable) (a : Addr) (tag : Tag) : Option QueryEntry := qt.entries.find? (isEntry a tag)

/-- How many live entries a station has, of every state (R103). -/
def liveCount (qt : QueryTable) (a : Addr) : Nat := (qt.entries.filter fun e => e.addr == a).length

/-- The live entry of a station and tag changed by `f`; its place in the arrival sequence stays (R105). -/
def updateEntry (a : Addr) (tag : Tag) (f : QueryEntry → QueryEntry) (s : State) : State :=
  { s with qt := { entries := s.qt.entries.map fun e => if isEntry a tag e then f e else e } }

/-- The live entry of a station and tag taken out; those behind it close up (R105, R119). -/
def dropEntry (a : Addr) (tag : Tag) (s : State) : State :=
  { s with qt := { entries := s.qt.entries.filter fun e => !isEntry a tag e } }

/-- Freeing an entry: it leaves the sequence, and its own slot is given up if it is still reserved (R119). -/
def freeEntry (e : QueryEntry) (s : State) : State :=
  dropEntry e.addr e.tag (updateStation e.addr (releaseSlot e.slot) s)

/-- A ROUTE entry. -/
def isRoute (e : QueryEntry) : Bool := match e.query with | .route _ _ _ => true | .find _ | .browse _ => false

/-- An entry in QUEUED. -/
def isQueued (e : QueryEntry) : Bool := e.state == .queued

/-- The oldest QUEUED entry of the kinds that `kinds` names (R105). -/
def oldestQueued (kinds : QueryEntry → Bool) (qt : QueryTable) : Option QueryEntry :=
  qt.entries.find? fun e => isQueued e && kinds e

/-- Whether the entry of a station and tag is HALTING, and with which cause. -/
def haltCause (s : State) (a : Addr) (tag : Tag) : Option HaltCause :=
  match findEntry s.qt a tag with
  | some e => (match e.state with | .halting cause => some cause | .queued | .working | .ready _ => none)
  | none => none

/-- A HALTING entry freed at its engine's boundary with the message of its cause (R118). -/
def freeHalted (e : QueryEntry) (cause : HaltCause) (s : State) : State :=
  match cause with
  | .cancel =>
    freeEntry e (match e.cancelSlot with
      | some place => updateStation e.addr (fillSlot place e.tag .cancelled) s
      | none => s)
  | .evacuation => dropEntry e.addr e.tag (updateStation e.addr (fillSlot e.slot e.tag (.refused .evacuating)) s)
  | .stationLeft => dropEntry e.addr e.tag s

/-- An engine completes a WORKING entry: it becomes READY with its answer, the hold countdown in force and the READY
message in its slot (R113). -/
def completeEntry (a : Addr) (tag : Tag) (answer : Answer) (message : Downstream) (s : State) : State :=
  match findEntry s.qt a tag with
  | none => s
  | some e =>
    updateStation a (fillSlot e.slot tag message)
      (updateEntry a tag (fun x => { x with state := .ready s.config.holdTime, answer := some answer }) s)

/-! ### A station leaves (R120) -/

/-- What a leaving does to one entry of the station: QUEUED and READY are freed, the others halt with STATION_LEFT. -/
def leaveEntry (e : QueryEntry) : Option QueryEntry :=
  match e.state with
  | .queued | .ready _ => none
  | .working | .halting _ => some { e with state := .halting .stationLeft }

/-- The query table when a station leaves (R120). No message is written: the station's queue is emptied as well. -/
def leaveEntries (a : Addr) (qt : QueryTable) : QueryTable :=
  { entries := qt.entries.filterMap fun e => if e.addr == a then leaveEntry e else some e }

/-! ### Evacuation (R121, R122) -/

/-- The READY message of a READY entry still waits in the queue: its slot is filled and no POLL has carried it (R170). -/
def readyWaits (st : Station) (slot : Nat) : Bool :=
  st.queue.any fun x => x.place == slot && x.content.isSome && !x.inFlight

/-- REFUSED EVACUATING for a READY entry: in place of the waiting READY, else in a free slot, else dropped (R121). -/
def refuseReady (e : QueryEntry) (st : Station) : Station :=
  if readyWaits st e.slot then fillSlot e.slot e.tag (.refused .evacuating) st
  else if slotsFull st then st
  else appendSlot (some (e.tag, .refused .evacuating)) st

/-- What evacuation entry does to one ROUTE entry (R121). -/
def evacuateEntry (e : QueryEntry) (s : State) : State :=
  match e.state with
  | .queued => dropEntry e.addr e.tag (updateStation e.addr (fillSlot e.slot e.tag (.refused .evacuating)) s)
  | .working => updateEntry e.addr e.tag (fun x => { x with state := .halting .evacuation }) s
  | .ready _ => dropEntry e.addr e.tag (updateStation e.addr (refuseReady e) s)
  | .halting _ => s

/-- Evacuation entry in SERVICE acts on every ROUTE entry, in arrival order (R121, log 17). -/
def evacuateEntries (s : State) : State :=
  (s.qt.entries.filter isRoute).foldl (fun t e => evacuateEntry e t) s

/-- A READY ROUTE entry whose answer carries the EVACUATION flag (R122). -/
def evacuationAnswer (e : QueryEntry) : Bool :=
  match e.state, e.answer with
  | .ready _, some (.route h _) => h.flags.evacuation
  | _, _ => false

/-- EVAC CLEAR frees every READY evacuation answer without any message (R122). -/
def clearEntries (qt : QueryTable) : QueryTable := { entries := qt.entries.filter fun e => !evacuationAnswer e }

end Sys2Proof.Machine
end

