-- ==== Sys2Proof/Machine/Find.lean ====
section
/-! DEFINITION. The Find Engine (chapter 8): matching, the ranked result list, the scan and the answer. -/

namespace Sys2Proof.Machine

/-! ### Matching (R151, R152) -/

/-- The prefix matches at a word start of the key, or of what is left of it; `start` says that the key stands at a word
start (R4, R151). -/
def matchesFrom (typed : List Nat) : Bool → List Nat → Bool
  | _, [] => false
  | start, x :: rest => (start && typed.isPrefixOf (x :: rest)) || matchesFrom typed (x == 0) rest

/-- The prefix matches the key at one or more of its word starts (R151). -/
def prefixMatches (typed key : List Nat) : Bool := matchesFrom typed true key

/-- A listing passes every test the request carries (R151, R152). -/
def isMatch (l : Lookup) (clockSet : Bool) (minute : Nat) (x : Listing) : Bool :=
  (match l.typed with | some typed => prefixMatches typed x.name | none => true)
    && (match l.category with | some c => x.categories.contains c | none => true)
    && (match l.floor with | some f => x.floor == f | none => true)
    && (!l.openOnly || openNow x clockSet minute)

/-! ### The ranked result list (R153) -/

/-- Rank order of (listing, count): count higher first, then directory order. -/
def rankBefore (key : Nat → List Nat) (a b : Nat × Nat) : Bool :=
  if b.2 < a.2 then true else if a.2 < b.2 then false else directoryBefore (key a.1, a.1) (key b.1, b.1)

/-- A match placed after every entry that orders before it. -/
def rankInsert (key : Nat → List Nat) (e : Nat × Nat) : List (Nat × Nat) → List (Nat × Nat)
  | [] => [e]
  | f :: rest => if rankBefore key e f then e :: f :: rest else f :: rankInsert key e rest

/-- A match offered to the result list: inserted at its place, and the list keeps its first 24 entries (R153). -/
def offerMatch (key : Nat → List Nat) (e : Nat × Nat) (results : List (Nat × Nat)) : List (Nat × Nat) :=
  (rankInsert key e results).take resultCapacity

/-! ### The scan (R147, R149, R150) -/

/-- The lookup of an entry, and whether it is a BROWSE (R148). -/
def lookupOf (e : QueryEntry) : Option (Lookup × Bool) :=
  match e.query with
  | .find l => some (l, false)
  | .browse l => some (l, true)
  | .route _ _ _ => none

/-- The work record of a scan at its start; the scan reads the clock (R149). -/
def startFind (s : State) (e : QueryEntry) (l : Lookup) (browse : Bool) : FindWork :=
  { addr := e.addr, tag := e.tag, browse := browse, lookup := l, forming := false, clockSet := s.cs.clock.set,
    minute := s.cs.clock.minute, position := 0, total := 0, results := [] }

/-- The find arbiter: its oldest QUEUED entry becomes WORKING, records the epoch, and the scan reads the clock (R110,
R111, R149). -/
def grantFind (s : State) : State :=
  if s.fe.work.isNone && s.ec.turn == .steady then
    match oldestQueued (fun e => !isRoute e) s.qt with
    | none => s
    | some e =>
      match lookupOf e with
      | none => s
      | some (l, browse) =>
        let t := updateEntry e.addr e.tag (fun x => { x with state := .working, epoch := some s.ec.epoch }) s
        { t with fe := { work := some (startFind s e l browse) } }
  else s

/-- The engine goes on with a changed work record. -/
def withFindWork (w : FindWork) (s : State) : State := { s with fe := { work := some w } }

/-- The engine returns to IDLE; the record is discarded (R147). -/
def findIdle (s : State) : State := { s with fe := { work := none } }

/-- The listing at the scan position is examined, a match is counted and offered, and the position advances (R150). -/
def scanListing (w : FindWork) (n : Nat) (s : State) : State :=
  match tableGet s.ds.listings n with
  | none => withFindWork { w with position := w.position + 1 } s
  | some x =>
    if isMatch w.lookup w.clockSet w.minute x then
      withFindWork { w with position := w.position + 1, total := w.total + 1,
                            results := offerMatch (nameOf s.ds) (n, x.popularity) w.results } s
    else withFindWork { w with position := w.position + 1 } s

/-! ### The answer (R155) -/

/-- The result entry of a listing. -/
def resultOf (ds : Directory) (w : FindWork) (n : Nat) : FindResult :=
  match tableGet ds.listings n with
  | some l =>
    { number := n, name := l.name, floor := l.floor, status := l.status, forward := l.forward,
      openNow := openNow l w.clockSet w.minute, reachStandard := l.reachStandard, reachStepFree := l.reachStepFree }
  | none =>
    { number := n, name := [], floor := 0, status := .closed, forward := none, openNow := false, reachStandard := false,
      reachStepFree := false }

/-- The whole answer of an ended scan (R155). -/
def formFind (s : State) (w : FindWork) (epoch : Nat) : FindHeader × List FindResult :=
  let results := w.results.map fun r => resultOf s.ds w r.1
  ({ tag := w.tag, browse := w.browse, epoch := epoch, total := w.total, returned := results.length,
     pageCount := ceilDiv results.length 8 }, results)

end Sys2Proof.Machine
end

