-- ==== Sys2Proof/Machine/Search.lean ====
section
/-! DEFINITION. The label-setting search that the Route Engine and the Evacuation Unit share: work records, the bounded
frontier and its overflow, relaxation, and the recovery of a path (R94, R130 to R136, R183). -/

namespace Sys2Proof.Machine

/-- The record of a node; one that is not listed holds the values a search begins with (R130). -/
def recordOf (x : Search) (n : Nat) : NodeRecord :=
  (tableGet x.records n).getD { cost := unreachable, via := none, settled := false }

/-- Frontier order: ascending cost, equal costs in ascending node number (R131). -/
def frontierBefore (a b : Nat × Nat) : Bool := decide (a.1 < b.1) || (a.1 == b.1 && decide (a.2 < b.2))

/-- An entry at its place in the frontier order (R131). -/
def frontierInsert (e : Nat × Nat) : List (Nat × Nat) → List (Nat × Nat)
  | [] => [e]
  | f :: rest => if frontierBefore e f then e :: f :: rest else f :: frontierInsert e rest

/-- The frontier without the entry of a node. -/
def frontierRemove (n : Nat) (frontier : List (Nat × Nat)) : List (Nat × Nat) := frontier.filter fun e => e.2 != n

/-- A node is present in the frontier. -/
def inFrontier (n : Nat) (frontier : List (Nat × Nat)) : Bool := frontier.any fun e => e.2 == n

/-- A cost recorded for a node that is not settled: moved within the frontier if present, else inserted, an insert into
a full frontier being an overflow (R131, R134). -/
def reach (cost : Nat) (via : Option Nat) (n : Nat) (x : Search) : Search :=
  let r : NodeRecord := { cost := cost, via := via, settled := false }
  if inFrontier n x.frontier then
    { x with records := tablePut x.records n r, frontier := frontierInsert (cost, n) (frontierRemove n x.frontier) }
  else if x.frontier.length < frontierCapacity then
    { x with records := tablePut x.records n r, frontier := frontierInsert (cost, n) x.frontier }
  else
    match x.frontier.getLast? with
    | none => x
    | some (lastCost, last) =>
      if lastCost ≤ cost then { x with records := tableErase x.records n, approximate := true }
      else
        { records := tablePut (tableErase x.records last) n r
          frontier := frontierInsert (cost, n) x.frontier.dropLast
          approximate := true }

/-- A relaxation to node `n` at a tentative cost: skipped at the unreachable cost and for a settled node, recorded on a
strict improvement (R94, R133). -/
def offer (tentative : Nat) (segment n : Nat) (x : Search) : Search :=
  if unreachable ≤ tentative then x
  else if (recordOf x n).settled then x
  else if tentative < (recordOf x n).cost then reach tentative (some segment) n x
  else x

/-- The search with the first frontier entry taken out and its node settled (R132). -/
def settleFirst (n : Nat) (rest : List (Nat × Nat)) (x : Search) : Search :=
  { x with records := tablePut x.records n { recordOf x n with settled := true }, frontier := rest }

/-- Relaxing a segment of the settled node `p` forward, toward its other end (R133). -/
def relaxForward (c : Configuration) (profile : Profile) (wg : Graph) (p segment : Nat) (x : Search) : Search :=
  match tableGet wg.segments segment with
  | none => x
  | some g =>
    if permitted profile g p (otherEnd g p)
    then offer ((recordOf x p).cost + segmentCost c profile wg g) segment (otherEnd g p) x
    else x

/-- Relaxing a segment of the settled node `q` backward: a visitor may step from its far end onto `q` (R183). -/
def relaxBackward (c : Configuration) (wg : Graph) (q segment : Nat) (x : Search) : Search :=
  match tableGet wg.segments segment with
  | none => x
  | some g =>
    if permitted .evacuation g (otherEnd g q) q
    then offer ((recordOf x q).cost + segmentCost c .evacuation wg g) segment (otherEnd g q) x
    else x

/-- The adjacency list of a node number, in list order (R28). -/
def adjacencyOf (wg : Graph) (n : Nat) : List Nat := ((tableGet wg.nodes n).map fun x => x.adjacency).getD []

/-- Every segment of a settled node relaxed by `relax`, in the order of its adjacency list (R132, R183). -/
def relaxAll (relax : Nat → Search → Search) (segments : List Nat) (x : Search) : Search :=
  segments.foldl (fun y segment => relax segment y) x

/-- A search that begins at an origin (R130). -/
def beginSearch (origin : Nat) : Search :=
  { records := [(origin, { cost := 0, via := none, settled := false })], frontier := [(0, origin)],
    approximate := false }

/-- The exit tree as BUILDING begins it: every source at cost 0, inserted in ascending node number (R183). -/
def beginTree (wg : Graph) : Search :=
  ((wg.nodes.filter fun p => p.2.kind == .exit .usable).map fun p => p.1).foldl (fun x n => reach 0 none n x)
    Search.empty

/-- The segments of the path to `n` in walking order, put before `after`, found from the predecessors (R136). -/
def pathTo (wg : Graph) (x : Search) : Nat → Nat → List Nat → List Nat
  | 0, _, after => after
  | fuel + 1, n, after =>
    match (recordOf x n).via with
    | none => after
    | some segment =>
      match tableGet wg.segments segment with
      | none => after
      | some g => pathTo wg x fuel (otherEnd g n) (segment :: after)

/-- The legs of a path that leaves `here` along the segments. -/
def legsOf (wg : Graph) : Nat → List Nat → List Leg
  | _, [] => []
  | here, segment :: rest =>
    match tableGet wg.segments segment with
    | none => []
    | some g =>
      { kind := g.kind, length := g.length, span := spanOf wg g, node := otherEnd g here }
        :: legsOf wg (otherEnd g here) rest

end Sys2Proof.Machine
end

