-- ==== Sys2Proof/Machine/Route.lean ====
section
/-! DEFINITION. The Route Engine (chapter 7): resolution at the grant, the search step, the walk step, step compression
and the answer. -/

namespace Sys2Proof.Machine

/-! ### Origin and target (R127 to R129) -/

/-- The origin of a ROUTE of station `a`: the node given when it is in use, else the home held at the grant (R127). -/
def resolveOrigin (wg : Graph) (a : Addr) (origin : Option Nat) : Option Nat :=
  match origin with
  | some n => if inUse wg.nodes n then some n else none
  | none => wg.homes[a]

/-- The chain of forwards from a listing, at most `hops` more of them: the final listing or none, and the relocation
flag (R128). -/
def followForwards (ds : Directory) : Nat → Nat → Bool → Option Nat × Bool
  | hops, n, relocated =>
    match tableGet ds.listings n with
    | none => (none, relocated)
    | some l =>
      if l.status = .relocated then
        match hops, l.forward with
        | 0, _ => (none, relocated)
        | _, none => (none, relocated)
        | hops + 1, some f => followForwards ds hops f true
      else (some n, relocated)

/-- The in-use AMENITY nodes of a class (R129). -/
def amenityNodes (wg : Graph) (cls : Nat) : List Nat :=
  (wg.nodes.filter fun p => p.2.kind == .amenity cls).map fun p => p.1

/-- A target resolved: the target set, empty when it fails, the final listing and the relocation flag (R128, R129). -/
structure Resolved where
  targets : List Nat
  finalListing : Option Nat
  relocated : Bool
  deriving DecidableEq, Repr

/-- The resolution of a target against the records of the epoch (R128, R129). -/
def resolveTarget (ds : Directory) (wg : Graph) (target : Target) : Resolved :=
  match target with
  | .listing n =>
    let r := followForwards ds 3 n false
    match r.1 with
    | none => { targets := [], finalListing := none, relocated := r.2 }
    | some m =>
      { targets := ((tableGet ds.listings m).map fun l => l.entrances).getD [], finalListing := some m,
        relocated := r.2 }
  | .node n => { targets := if inUse wg.nodes n then [n] else [], finalListing := none, relocated := false }
  | .amenity cls => { targets := amenityNodes wg cls, finalListing := none, relocated := false }

/-- The Route Engine after a grant: SEARCHING, WALKING while the Evacuation Unit is ACTIVE, or FORMING when the
resolution gives NO_ROUTE without a search (R125, R127, R144). -/
def startRoute (s : State) (e : QueryEntry) (target : Target) (profile : Profile) (origin : Option Nat) :
    RouteEngine :=
  let walks := s.eu.unit == .active
  let failed : RouteWork :=
    { addr := e.addr, tag := e.tag, phase := .forming, profile := if walks then .evacuation else profile, origin := none,
      targets := [], finalListing := none, relocated := false, settles := 0, limit := s.config.effortLimit,
      outcome := some .noRoute, reached := none, stands := 0, taken := [] }
  let unsearched : Search := { s.re.search with approximate := false }
  match resolveOrigin s.wg e.addr origin with
  | none => { work := some failed, search := unsearched }
  | some o =>
    if walks then
      { work := some { failed with phase := .walking, origin := some o, outcome := none, stands := o }
        search := unsearched }
    else
      let r := resolveTarget s.ds s.wg target
      let w := { failed with origin := some o, targets := r.targets, finalListing := r.finalListing,
                             relocated := r.relocated }
      if r.targets.isEmpty then { work := some w, search := unsearched }
      else { work := some { w with phase := .searching, outcome := none }, search := beginSearch o }

/-- The route arbiter may grant (R110), apart from an entry being QUEUED. -/
def routeMayGrant (s : State) : Bool :=
  s.re.work.isNone && s.ec.turn == .steady && (!s.eu.latch || s.eu.unit == .active)

/-- The route arbiter: its oldest QUEUED entry becomes WORKING and records the epoch (R110, R111). -/
def grantRoute (s : State) : State :=
  if routeMayGrant s then
    match oldestQueued isRoute s.qt with
    | none => s
    | some e =>
      match e.query with
      | .route target profile origin =>
        { updateEntry e.addr e.tag (fun x => { x with state := .working, epoch := some s.ec.epoch }) s with
          re := startRoute s e target profile origin }
      | .find _ | .browse _ => s
  else s

/-! ### The engine's steps -/

/-- The engine goes on with a changed work record. -/
def withRouteWork (w : RouteWork) (s : State) : State := { s with re := { s.re with work := some w } }

/-- The engine returns to IDLE; the record and the frontier are discarded (R125, R131). -/
def routeIdle (s : State) : State :=
  { s with re := { work := none, search := { s.re.search with frontier := [] } } }

/-- A search or walk that has ended goes to FORMING with its outcome (R125). -/
def routeEnds (outcome : RouteStatus) (reached : Option Nat) (w : RouteWork) (s : State) : State :=
  withRouteWork { w with phase := .forming, outcome := some outcome, reached := reached } s

/-- A search with no candidate left ends NO_ROUTE, and one at its effort limit ends EFFORT_LIMIT (R132). The result is
none when the search makes a settle. -/
def searchEnds (w : RouteWork) (x : Search) : Option RouteStatus :=
  if x.frontier.isEmpty then some .noRoute
  else if w.settles = w.limit then some .effortLimit
  else none

/-- The settle of the first frontier node: FOUND at a target, else its segments are relaxed (R132, R133). -/
def settleStep (w : RouteWork) (s : State) : State :=
  match s.re.search.frontier with
  | [] => s
  | (_, n) :: rest =>
    let x := settleFirst n rest s.re.search
    let w' := { w with settles := w.settles + 1 }
    if w.targets.contains n then routeEnds .found (some n) w' { s with re := { s.re with search := x } }
    else
      withRouteWork w'
        { s with re := { s.re with
          search := relaxAll (relaxForward s.config w.profile s.wg n) (adjacencyOf s.wg n) x } }

/-- The walk examines the node it stands at (R144). -/
def walkStep (w : RouteWork) (s : State) : State :=
  let r := recordOf s.eu.tree w.stands
  if r.cost = 0 then routeEnds .found (some w.stands) w s
  else
    match r.via with
    | none => routeEnds .noRoute none w s
    | some segment =>
      match tableGet s.wg.segments segment with
      | none => routeEnds .noRoute none w s
      | some g => withRouteWork { w with stands := otherEnd g w.stands, taken := w.taken ++ [segment] } s

/-! ### Steps of an answer (R137 to R140) -/

/-- The node where the run of `kind` that leaves `here` ends (R98, R138). -/
def runEnd (kind : SegmentKind) (here : Nat) : List Leg → Nat
  | [] => here
  | l :: rest => if l.kind = kind then runEnd kind l.node rest else here

/-- The way of a run from `here`: by the floors of its ends, or of its first segment when those are equal (R138). -/
def wayOf (wg : Graph) (here first last : Nat) : Way :=
  if floorOf wg here < floorOf wg last then .up
  else if floorOf wg last < floorOf wg here then .down
  else if floorOf wg here < floorOf wg first then .up
  else .down

/-- The action of a turn class, none for STRAIGHT (R138). -/
def turnAction : TurnClass → Option StepAction
  | .straight => none
  | .left => some .left
  | .right => some .right
  | .back => some .back

/-- The action and floor of the step at `here`, if it carries one besides START and ARRIVE: a turn between two
horizontal segments, or TAKE where a vertical run begins (R138). `before` is the node and kind of the arriving
segment. -/
def actionAt (wg : Graph) (before : Option (Nat × SegmentKind)) (here : Nat) (l : Leg) (rest : List Leg) :
    Option (StepAction × Nat) :=
  if horizontal l.kind then
    match before with
    | some (p, kind) =>
      if horizontal kind then (turnAction (classAt wg p here l.node)).map fun a => (a, floorOf wg here) else none
    | none => none
  else if before.map (·.2) = some l.kind then none
  else
    let last := runEnd l.kind l.node rest
    some (.take l.kind (wayOf wg here l.node last), floorOf wg last)

/-- The steps after START, in path order; `walked` is the length since the previous step (R138, R139). -/
def stepsFrom (wg : Graph) (before : Option (Nat × SegmentKind)) (here walked : Nat) : List Leg → List RouteStep
  | [] => [{ node := here, action := .arrive, floor := floorOf wg here, distance := walked }]
  | l :: rest =>
    match actionAt wg before here l rest with
    | some (action, floor) =>
      { node := here, action := action, floor := floor, distance := walked }
        :: stepsFrom wg (some (here, l.kind)) l.node l.length rest
    | none => stepsFrom wg (some (here, l.kind)) l.node (walked + l.length) rest

/-- The untruncated steps of a path from `here` (R138). -/
def allSteps (wg : Graph) (here : Nat) (legs : List Leg) : List RouteStep :=
  { node := here, action := .start, floor := floorOf wg here, distance := 0 } :: stepsFrom wg none here 0 legs

/-- A distance saturating at 65535 dm (R139). -/
def saturateStep (x : RouteStep) : RouteStep := { x with distance := min 65535 x.distance }

/-- More than 64 steps are cut to the first 63 and an ARRIVE that carries the rest of the distance (R140). -/
def truncateSteps (steps : List RouteStep) : List RouteStep :=
  if steps.length ≤ stepCapacity then steps
  else
    steps.take 63 ++ (match steps.getLast? with
      | some last => [{ last with distance := ((steps.drop 63).map fun x => x.distance).sum }]
      | none => [])

/-! ### The answer (R141 to R143) -/

/-- The path of an ended search or walk: its first node and its segments in walking order (R136, R144). -/
def pathOf (s : State) (w : RouteWork) : Nat × List Nat :=
  let first := w.origin.getD 0
  if w.profile = .evacuation then (first, w.taken)
  else (first, pathTo s.wg s.re.search nodeCapacity (w.reached.getD 0) [])

/-- The path cost: the best cost of the reached node, or the origin's cost to exit (R95, R144). -/
def pathCost (s : State) (w : RouteWork) : Nat :=
  if w.profile = .evacuation then (recordOf s.eu.tree (w.origin.getD 0)).cost
  else (recordOf s.re.search (w.reached.getD 0)).cost

/-- The APPROXIMATE flag: the search made an overflow, or the tree was built with one (R142). -/
def answerApproximate (s : State) (w : RouteWork) : Bool :=
  if w.profile = .evacuation then s.eu.tree.approximate else s.re.search.approximate

/-- The final listing of a FOUND answer is not open now (R142). -/
def answerClosed (s : State) (w : RouteWork) : Bool :=
  match w.finalListing with
  | some n => !numberOpenNow s.ds n s.cs.clock.set s.cs.clock.minute
  | none => false

/-- The whole answer of an ended search or walk (R141 to R143). -/
def formRoute (s : State) (w : RouteWork) (epoch : Nat) : RouteHeader × List RouteStep :=
  let found := w.outcome == some .found
  let path := pathOf s w
  let legs := if found then legsOf s.wg path.1 path.2 else []
  let raw := if found then allSteps s.wg path.1 legs else []
  let steps := (truncateSteps raw).map saturateStep
  let seconds := if found then totalSeconds s.config w.profile legs else 0
  ({ tag := w.tag
     status := w.outcome.getD .noRoute
     epoch := epoch
     finalListing := w.finalListing
     reached := if found then w.reached else none
     cost := if found then pathCost s w else 0
     seconds := seconds
     minutes := (minutesOf seconds).1
     stepCount := steps.length
     pageCount := ceilDiv steps.length 8
     flags :=
       { approximate := answerApproximate s w
         truncated := decide (stepCapacity < raw.length)
         closedNow := found && answerClosed s w
         relocated := w.relocated
         evacuation := w.profile == .evacuation
         long := (minutesOf seconds).2 } }, steps)

/-- The popularity credit of an answer that becomes READY (R18). -/
def creditAnswer (h : RouteHeader) (s : State) : State :=
  match h.finalListing with
  | some n =>
    if h.status = .found ∧ s.config.frozen = false
    then { s with ds := { s.ds with listings := tableUpdate s.ds.listings n credit } }
    else s
  | none => s

end Sys2Proof.Machine
end

