-- ==== Sys2Proof/Machine/Evac.lean ====
section
/-! DEFINITION. The two arbiters together (R110) and the Evacuation Unit (chapter 10): entry, clear, the line filter and
the build of the exit tree, with the steps of the unit and the line that the table lists. -/

namespace Sys2Proof.Machine

/-- Both arbiters grant what they can (R110). They are independent of each other. -/
def grant (s : State) : State := grantFind (grantRoute s)

/-! ### The build (R182 to R184) -/

/-- Entering BUILDING: the tree is begun afresh (R183). -/
def startBuild (s : State) : State := { s with eu := { s.eu with unit := .building, tree := beginTree s.wg } }

/-- The moment at which BUILDING begins apart from the completion of a turn (R182). -/
def buildDue (s : State) : Bool :=
  s.service == .service && s.eu.latch && s.eu.unit == .off && s.ec.turn == .steady && s.re.work.isNone

/-- BUILDING begins at the first moment it may (R182, log 4). -/
def beginBuildIfDue (s : State) : State := whenever (buildDue s = true) startBuild s

/-- What follows when the route engine has become idle: a build that waited for it begins, and the arbiters grant. -/
def afterRouteIdle (s : State) : State := grant (beginBuildIfDue s)

/-- The end of BUILDING by completion or clear: a wanted turn starts at once, else the arbiters grant (R184, R186). -/
def afterBuild (s : State) : State :=
  if s.ec.wanted then { s with ec := startWanted s.ec } else grant s

/-- One settle of the build (R183). -/
def treeSettle (s : State) : State :=
  match s.eu.tree.frontier with
  | [] => s
  | (_, n) :: rest =>
    { s with eu := { s.eu with
        tree := relaxAll (relaxBackward s.config s.wg n) (adjacencyOf s.wg n) (settleFirst n rest s.eu.tree) } }

/-! ### Entry and clear (R181, R186) -/

/-- An evacuation entry (R181). -/
def evacuationEntry (s : State) : State :=
  if s.eu.latch then s
  else
    let latched := raiseFlag evacChange { s with eu := { s.eu with latch := true } }
    match s.service with
    | .loading => latched
    | .starting => raiseGroups (groupBit 11) latched
    | .service => beginBuildIfDue (evacuateEntries (raiseGroups (groupBit 11) latched))

/-- The latch cleared with what goes with it, apart from what follows (R186). A tree that was being built is abandoned; that
its records and the tree-wide APPROXIMATE flag stay as they stand is the model's choice (log 37). -/
def clearLatch (s : State) : State :=
  let cleared := raiseFlag evacChange
    { s with eu := { s.eu with latch := false, unit := .off }, qt := clearEntries s.qt }
  match s.service with
  | .loading => cleared
  | .starting | .service => raiseGroups (groupBit 11) cleared

/-- An EVAC CLEAR that is taken: nothing while the latch is clear (R186). -/
def evacuationClear (s : State) : State :=
  if !s.eu.latch then s
  else if s.eu.unit = .building then afterBuild (clearLatch s)
  else grant (clearLatch s)

/-! ### The EMERGENCY line (R179) -/

/-- The recognition of ASSERTED: an evacuation entry, whatever the service state. -/
def recogniseAsserted (s : State) : State :=
  evacuationEntry { s with eu := { s.eu with asserted := true, differing := 0 } }

/-- The recognition of RELEASED: it sets EVAC_CHANGE while the latch is set. -/
def recogniseReleased (s : State) : State :=
  let released := { s with eu := { s.eu with asserted := false, differing := 0 } }
  if s.eu.latch then raiseFlag evacChange released else released

/-- One sample of the line; a third differing sample in a row is the recognition (log 6). -/
def sampleLine (asserted : Bool) (s : State) : State :=
  if asserted = s.eu.asserted then { s with eu := { s.eu with differing := 0 } }
  else if s.eu.differing < 2 then { s with eu := { s.eu with differing := s.eu.differing + 1 } }
  else if asserted then recogniseAsserted s else recogniseReleased s

/-! ### The steps -/

/-- EMERGENCY_SAMPLE: a sample of the EMERGENCY input (R179). -/
def execEmergencySample (asserted : Bool) (s : State) : Host.Outcome State Fault Refusal := live (sampleLine asserted) s

/-- EMERGENCY_ASSERTED: the third asserted sample in a row (R179, R181). -/
def execEmergencyAsserted (s : State) : Host.Outcome State Fault Refusal :=
  live (fun s => whenever (s.eu.asserted = false ∧ s.eu.differing = 2) recogniseAsserted s) s

/-- EMERGENCY_RELEASED: the third released sample in a row (R179). -/
def execEmergencyReleased (s : State) : Host.Outcome State Fault Refusal :=
  live (fun s => whenever (s.eu.asserted = true ∧ s.eu.differing = 2) recogniseReleased s) s

/-- EXIT_TREE_BUILD_START (R182, R183). -/
def execExitTreeBuildStart (s : State) : Host.Outcome State Fault Refusal :=
  live (fun s => whenever (buildDue s = true) startBuild s) s

/-- EXIT_TREE_SETTLE (R183). -/
def execExitTreeSettle (s : State) : Host.Outcome State Fault Refusal :=
  live (fun s => whenever (s.eu.unit = .building) treeSettle s) s

/-- EXIT_TREE_BUILD_COMPLETE (R184). -/
def execExitTreeBuildComplete (s : State) : Host.Outcome State Fault Refusal :=
  live (fun s => whenever (s.eu.unit = .building ∧ s.eu.tree.frontier = [])
    (fun s => afterBuild { s with eu := { s.eu with unit := .active } }) s) s

end Sys2Proof.Machine
end

