-- ==== Sys2Proof/Machine/Engine.lean ====
section
/-! DEFINITION. The steps of the Route Engine and the Find Engine that the table lists: each passes its boundary, where
a HALTING entry is freed and the engine becomes idle (R118, R126, R150, R156). -/

namespace Sys2Proof.Machine

/-! ### Route Engine -/

/-- The route engine abandons its HALTING entry, which is freed with the message of its cause (R118, R126). -/
def haltRoute (w : RouteWork) (cause : HaltCause) (s : State) : State :=
  match findEntry s.qt w.addr w.tag with
  | some e => afterRouteIdle (routeIdle (freeHalted e cause s))
  | none => s

/-- At a boundary the engine halts if its entry is HALTING, else it goes on with `f` (R126). -/
def routeBoundary (w : RouteWork) (f : State → State) (s : State) : State :=
  match haltCause s w.addr w.tag with
  | some cause => haltRoute w cause s
  | none => f s

/-- The next thing the engine does is to pass a boundary: it is not about to end its search (R126, R132). -/
def atRouteBoundary (w : RouteWork) (s : State) : Bool :=
  match w.phase with
  | .searching => (searchEnds w s.re.search).isNone
  | .walking | .forming => true

/-- The end of FORMING for a WORKING entry: READY with its answer, its message and its credit (R113, R143). -/
def finishRoute (w : RouteWork) (s : State) : State :=
  match findEntry s.qt w.addr w.tag with
  | none => s
  | some e =>
    let answer := formRoute s w (e.epoch.getD 0)
    afterRouteIdle (routeIdle (creditAnswer answer.1
      (completeEntry w.addr w.tag (.route answer.1 answer.2) (.routeReady answer.1) s)))

/-- One step of a search (R132). -/
def searchStep (w : RouteWork) (s : State) : State :=
  match searchEnds w s.re.search with
  | some outcome => routeEnds outcome none w s
  | none => routeBoundary w (settleStep w) s

/-- `f` on the work record of a route engine in the phase named; nothing in any other state. -/
def inRoutePhase (phase : RoutePhase) (f : RouteWork → State → State) (s : State) : State :=
  match s.re.work with
  | some w => if w.phase = phase then f w s else s
  | none => s

/-- ROUTE_SEARCH_SETTLE (R132). -/
def execRouteSearchSettle (s : State) : Host.Outcome State Fault Refusal := live (inRoutePhase .searching searchStep) s

/-- EXIT_TREE_WALK_STEP (R144). -/
def execExitTreeWalkStep (s : State) : Host.Outcome State Fault Refusal :=
  live (inRoutePhase .walking (fun w => routeBoundary w (walkStep w))) s

/-- ROUTE_FORMING_END (R143). -/
def execRouteFormingEnd (s : State) : Host.Outcome State Fault Refusal :=
  live (inRoutePhase .forming (fun w => routeBoundary w (finishRoute w))) s

/-- ROUTE_ENGINE_HALT: the engine stops at its boundary if its entry is HALTING (R118, R126). -/
def execRouteEngineHalt (s : State) : Host.Outcome State Fault Refusal :=
  live (fun s => match s.re.work with
    | some w => whenever (atRouteBoundary w s = true) (routeBoundary w id) s
    | none => s) s

/-! ### Find Engine -/

/-- The find engine abandons its HALTING entry (R118, R150, R156). -/
def haltFind (w : FindWork) (cause : HaltCause) (s : State) : State :=
  match findEntry s.qt w.addr w.tag with
  | some e => grant (findIdle (freeHalted e cause s))
  | none => s

/-- At a boundary the engine halts if its entry is HALTING, else it goes on with `f`. -/
def findBoundary (w : FindWork) (f : State → State) (s : State) : State :=
  match haltCause s w.addr w.tag with
  | some cause => haltFind w cause s
  | none => f s

/-- The next thing the engine does is to pass a boundary: it is not about to end its scan (R150). -/
def atFindBoundary (w : FindWork) (s : State) : Bool := w.forming || (s.ds.nameIndex[w.position]?).isSome

/-- One step of a scan: past the last place it ends, else a boundary and the listing at the position (R150). -/
def scanStep (w : FindWork) (s : State) : State :=
  match s.ds.nameIndex[w.position]? with
  | none => withFindWork { w with forming := true } s
  | some n => findBoundary w (scanListing w n) s

/-- The end of FORMING for a WORKING entry (R113, R156). -/
def finishFind (w : FindWork) (s : State) : State :=
  match findEntry s.qt w.addr w.tag with
  | none => s
  | some e =>
    let answer := formFind s w (e.epoch.getD 0)
    grant (findIdle (completeEntry w.addr w.tag (.find answer.1 answer.2) (.findReady answer.1) s))

/-- FIND_SCAN_STEP (R150). -/
def execFindScanStep (s : State) : Host.Outcome State Fault Refusal :=
  live (fun s => match s.fe.work with
    | some w => whenever (w.forming = false) (scanStep w) s
    | none => s) s

/-- FIND_FORMING_END (R156). -/
def execFindFormingEnd (s : State) : Host.Outcome State Fault Refusal :=
  live (fun s => match s.fe.work with
    | some w => whenever (w.forming = true) (findBoundary w (finishFind w)) s
    | none => s) s

/-- FIND_ENGINE_HALT (R118, R150, R156). -/
def execFindEngineHalt (s : State) : Host.Outcome State Fault Refusal :=
  live (fun s => match s.fe.work with
    | some w => whenever (atFindBoundary w s = true) (findBoundary w id) s
    | none => s) s

end Sys2Proof.Machine
end

