-- ==== Sys2Proof/Machine/Link.lean ====
section
/-! DEFINITION. The Kiosk Link (chapter 9): rotations, leaving, the frame of a trunk and the messages the part sends in
it. -/

namespace Sys2Proof.Machine

/-! ### Stations of a trunk -/

/-- The stations of a trunk after a pointer, in address order from 15 round to 00, the pointer's own last (R163). -/
def rotation (after : StationNo) : List StationNo := (List.finRange 16).map fun i => after + 1 + i

/-- The first station after a pointer that passes a test (R163, R166, R173). -/
def firstAfter (after : StationNo) (test : StationNo → Bool) : Option StationNo := (rotation after).find? test

/-- The record of a station of a trunk. -/
def trunkStation (s : State) (t : TrunkNo) (n : StationNo) : Station := stationAt s (addrOf t n)

/-- Some station of a trunk passes a test. -/
def anyStation (s : State) (t : TrunkNo) (test : Station → Bool) : Bool :=
  (List.finRange 16).any fun n => test (trunkStation s t n)

/-! ### Leaving (R169) -/

/-- The record of a station that leaves ENABLED and DORMANT: queue and pending mask emptied, misses 0. -/
def leftRecord (st : Station) : Station := { st with queue := [], pendingMask := 0, misses := 0 }

/-- The leaving of a station that is ENABLED or DORMANT, with its entries (R120, R169); nothing in another state. -/
def leave (a : Addr) (s : State) : State :=
  if inService (stationAt s a) then
    let t := updateStation a leftRecord s
    { t with qt := leaveEntries a s.qt }
  else s

/-- A station goes to a state outside ENABLED and DORMANT (R167, R169). -/
def depart (a : Addr) (new : StationState) (s : State) : State := changeState a new (leave a s)

/-- A reply awaited from a station is to be ignored: its state changes while the exchange is under way (R165). -/
def voidExchange (a : Addr) (s : State) : State :=
  updateTrunk (trunkOf a) (fun k => { k with exchange := k.exchange.map fun x =>
    if x.station = a then { x with void := true } else x }) s

/-! ### Frames (R160 to R162) -/

/-- The BEACON of frame `n` of a trunk, from the values held at the frame start (R36, R162). -/
def beaconOf (s : State) (n : Nat) : Beacon :=
  { frame := n, epoch := s.ec.epoch, minute := if s.cs.clock.set then some s.cs.clock.minute else none,
    evacuation := s.eu.latch, service := s.service, bitRate := s.config.bitRate, floor := n % 8,
    label := s.config.labels.getD (n % 8) (0, 0) }

/-- A trunk at the start of frame `n`: the settings in force are taken and the BEACON is sent (R160, R161). -/
def beginFrame (s : State) (n : Nat) (k : Trunk) : Trunk :=
  { k with frame := n, settings := settingsOf s.config, elapsed := beaconMicros, part := .notices, noticed := [],
           exchange := none, sent := .beacon (beaconOf s n) }

/-- A station at a frame start: the countdown of a RESETTING station and the notice spacing fall (R168, R173). -/
def frameTick (st : Station) : Station :=
  { st with countdown := if st.state = .resetting then st.countdown - 1 else st.countdown, spacing := st.spacing - 1 }

/-- The next frame of a trunk (R160). -/
def startFrame (t : TrunkNo) (s : State) : State :=
  mapStations (fun a st => if trunkOf a = t then frameTick st else st)
    (updateTrunk t (fun k => beginFrame s ((k.frame + 1) % 4096) k) s)

/-! ### Time in a frame (R161, log 9) -/

/-- So many bit times of the frame in microseconds. -/
def linkMicros (k : Trunk) (bits : Nat) : Nat := bits * bitMicros k.settings.bitRate

/-- The moment at which the next message of the poll window or the management exchange may begin. -/
def pollFrom (k : Trunk) : Nat := max k.elapsed (pollStart k.settings)

/-- So many bit times, begun then, end within the frame. -/
def fitsFrame (k : Trunk) (bits : Nat) : Bool :=
  decide (pollFrom k + linkMicros k bits ≤ frameMicros k.settings)

/-! ### NOTICE (R173) -/

/-- A station is eligible for a NOTICE (R173). -/
def eligible (st : Station) : Bool :=
  st.state == .enabled && st.pendingMask != 0 && (st.spacing == 0 || st.raisedSince)

/-- The station a NOTICE goes to: eligible, first after the pointer, and not sent one in this frame. -/
def noticeTarget (s : State) (t : TrunkNo) : Option StationNo :=
  firstAfter (trunkAt s t).noticePtr fun n =>
    eligible (trunkStation s t n) && !(trunkAt s t).noticed.contains n

/-- A NOTICE begun now ends within the notice window (R161). -/
def noticeFits (k : Trunk) : Bool :=
  k.part == .notices && k.exchange.isNone
    && decide (k.elapsed + linkMicros k (messageBits 2) ≤ noticeEnd k.settings)

/-- A NOTICE to a station: its pending mask goes out, spacing 4, raised-since false (R173). -/
def sendNotice (t : TrunkNo) (n : StationNo) (s : State) : State :=
  updateStation (addrOf t n) (fun st => { st with spacing := 4, raisedSince := false })
    (updateTrunk t (fun k =>
      { k with elapsed := k.elapsed + linkMicros k (messageBits 2), noticed := n :: k.noticed, noticePtr := n,
               sent := .notice n (trunkStation s t n).pendingMask }) s)

/-! ### POLL (R163, R164) -/

/-- A station is pollable in a frame (R163). -/
def pollable (frame : Nat) (st : Station) : Bool :=
  match st.state with
  | .enabled | .resetting => true
  | .dormant => frame % 16 == 0
  | .absent | .attached | .faulted | .disabled => false

/-- The station the next POLL goes to (R163). -/
def pollTarget (s : State) (t : TrunkNo) : Option StationNo :=
  firstAfter (trunkAt s t).pollPtr fun n => pollable (trunkAt s t).frame (trunkStation s t n)

/-- The slot whose message a POLL carries: the one in flight, else the filled one with the earliest place (R164). -/
def carriedSlot (st : Station) : Option Slot :=
  match st.queue.find? fun x => x.inFlight with
  | some x => some x
  | none => st.queue.find? fun x => x.content.isSome

/-- The message a POLL carries. -/
def carriedMessage (st : Station) : Option (Tag × Downstream) := (carriedSlot st).bind fun x => x.content

/-- The slot a POLL carries becomes in flight (R164). -/
def markCarried (st : Station) : Station :=
  match carriedSlot st with
  | some c => { st with queue := st.queue.map fun x => if x.place = c.place then { x with inFlight := true } else x }
  | none => st

/-- Slots free: 4 less the slots filled or reserved, the slot in flight counted as free (R164). -/
def slotsFree (st : Station) : Nat := slotCapacity - (st.queue.filter fun x => !x.inFlight).length

/-- The bytes of the downstream message a POLL carries. -/
def carriedLength (st : Station) : Nat :=
  match carriedMessage st with | some (_, m) => (encodeDownstream m).length | none => 0

/-- The time kept for the management exchange due in the frame, in bit times (R161). -/
def managementBits (s : State) (t : TrunkNo) : Nat :=
  if anyStation s t (fun st => st.state == .attached) then messageBits 0
  else if anyStation s t (fun st => st.state == .absent || st.state == .faulted) then probeExchangeBits
  else 0

/-- A POLL of station `n` may be begun (R161). -/
def pollFits (s : State) (t : TrunkNo) (n : StationNo) : Bool :=
  let k := trunkAt s t
  k.exchange.isNone && k.part != .finished
    && fitsFrame k (pollExchangeBits (carriedLength (trunkStation s t n)) + managementBits s t)

/-- The station that a POLL may be sent to now. -/
def pollNow (s : State) (t : TrunkNo) : Option StationNo :=
  match pollTarget s t with
  | some n => if pollFits s t n then some n else none
  | none => none

/-- A POLL of a station (R164). -/
def sendPoll (t : TrunkNo) (n : StationNo) (s : State) : State :=
  let st := markCarried (trunkStation s t n)
  putStation (addrOf t n) st
    (updateTrunk t (fun k =>
      { k with elapsed := pollFrom k + linkMicros k (messageBits (carriedLength st + 1)), part := .polls, pollPtr := n,
               exchange := some { station := addrOf t n, probe := false, void := false },
               sent := .poll n st.delivery (slotsFree st) (carriedMessage st) }) s)

/-! ### The management exchange (R166) -/

/-- The management exchange may come: no reply is awaited, none was made in this frame, and no POLL can be begun
(R161, log 10). -/
def managementTurn (s : State) (t : TrunkNo) : Bool :=
  (trunkAt s t).exchange.isNone && (trunkAt s t).part != .finished && (pollNow s t).isNone

/-- The station a STATION RESET goes to. -/
def resetTarget (s : State) (t : TrunkNo) : Option StationNo :=
  firstAfter (trunkAt s t).resetPtr fun n => (trunkStation s t n).state == .attached

/-- The station a PROBE goes to, when no station of the trunk is ATTACHED. -/
def probeTarget (s : State) (t : TrunkNo) : Option StationNo :=
  if anyStation s t (fun st => st.state == .attached) then none
  else firstAfter (trunkAt s t).probePtr fun n =>
    (trunkStation s t n).state == .absent || (trunkStation s t n).state == .faulted

/-- A STATION RESET to a station: it becomes RESETTING with countdown 4 (R168). -/
def sendReset (t : TrunkNo) (n : StationNo) (s : State) : State :=
  changeState (addrOf t n) .resetting
    (updateStation (addrOf t n) (fun st => { st with countdown := 4 })
      (updateTrunk t (fun k =>
        { k with elapsed := pollFrom k + linkMicros k (messageBits 0), part := .finished, resetPtr := n,
                 sent := .stationReset n }) s))

/-- A PROBE to a station. -/
def sendProbe (t : TrunkNo) (n : StationNo) (s : State) : State :=
  updateTrunk t (fun k =>
    { k with elapsed := pollFrom k + linkMicros k (messageBits 0), part := .finished, probePtr := n,
             exchange := some { station := addrOf t n, probe := true, void := false }, sent := .probe n }) s

/-! ### The steps -/

/-- FRAME_START (R160, R162, log 9). -/
def execFrameStart (trunk : TrunkNo) (s : State) : Host.Outcome State Fault Refusal :=
  live (fun s => whenever ((trunkAt s trunk).exchange = none) (startFrame trunk) s) s

/-- A failed reset attempt: back to ATTACHED, or to FAULTED with attempts 0 at the third (R168). -/
def failAttempt (a : Addr) (s : State) : State :=
  let attempts := (stationAt s a).attempts + 1
  if attempts < 3 then changeState a .attached (updateStation a (fun st => { st with attempts := attempts }) s)
  else changeState a .faulted (updateStation a (fun st => { st with attempts := 0 }) s)

/-- RESET_COUNTDOWN_EXPIRY: the countdown has reached 0 at a frame start (R168, log 7). -/
def execResetCountdownExpiry (station : Addr) (s : State) : Host.Outcome State Fault Refusal :=
  live (fun s => whenever ((stationAt s station).state = .resetting ∧ (stationAt s station).countdown = 0)
    (failAttempt station) s) s

/-- NOTICE (R173). -/
def execNotice (trunk : TrunkNo) (s : State) : Host.Outcome State Fault Refusal :=
  live (fun s => match noticeTarget s trunk with
    | some n => whenever (noticeFits (trunkAt s trunk) = true) (sendNotice trunk n) s
    | none => s) s

/-- POLL (R163, R164). -/
def execPoll (trunk : TrunkNo) (s : State) : Host.Outcome State Fault Refusal :=
  live (fun s => match pollNow s trunk with | some n => sendPoll trunk n s | none => s) s

/-- STATION_RESET (R166, R168). -/
def execStationReset (trunk : TrunkNo) (s : State) : Host.Outcome State Fault Refusal :=
  live (fun s => match resetTarget s trunk with
    | some n =>
      whenever (managementTurn s trunk = true ∧ fitsFrame (trunkAt s trunk) (messageBits 0) = true)
        (sendReset trunk n) s
    | none => s) s

/-- PROBE (R166). -/
def execProbe (trunk : TrunkNo) (s : State) : Host.Outcome State Fault Refusal :=
  live (fun s => match probeTarget s trunk with
    | some n =>
      whenever (managementTurn s trunk = true ∧ fitsFrame (trunkAt s trunk) probeExchangeBits = true)
        (sendProbe trunk n) s
    | none => s) s

end Sys2Proof.Machine
end

