-- ==== Sys2Proof/Machine/Requests.lean ====
section
/-! DEFINITION. Requests of a station: the slot each reserves (R171), admission (R106 to R109), PAGE, CANCEL and RELEASE
(R115 to R117, R145, R157), SEEN, SLEEP and WAKE (R169, R174). -/

namespace Sys2Proof.Machine

/-- A message written into the slot reserved at a place. -/
def answerSlot (a : Addr) (place : Nat) (tag : Tag) (m : Downstream) (s : State) : State :=
  updateStation a (fillSlot place tag m) s

/-- REFUSED with its reason, written at once (R106, R171). -/
def refuseSlot (a : Addr) (place : Nat) (tag : Tag) (reason : LinkReason) (s : State) : State :=
  answerSlot a place tag (.refused reason) s

/-- The overrun count rises by 1 and saturates at 255 (R171). -/
def countOverrun (st : Station) : Station := { st with overruns := min 255 (st.overruns + 1) }

/-- A request that reserves a slot: discarded with an overrun when all four are in use, else `f` with the place of its
slot (R171). -/
def withSlot (a : Addr) (f : Nat → State → State) (s : State) : State :=
  if slotsFull (stationAt s a) then updateStation a countOverrun s
  else f (stationAt s a).nextPlace (updateStation a (appendSlot none) s)

/-! ### Admission (R106) -/

/-- Check 6: the target of a ROUTE is not there at all (R108). -/
def targetMissing (s : State) : Query → Bool
  | .route (.listing n) _ _ => !inUse s.ds.listings n
  | .route (.node n) _ _ => !inUse s.wg.nodes n
  | .route (.amenity cls) _ _ => (amenityNodes s.wg cls).isEmpty
  | .find _ | .browse _ => false

/-- Check 7: a ROUTE gives no origin and the station has no home (R108). -/
def originMissing (s : State) (a : Addr) : Query → Bool
  | .route _ _ none => (s.wg.homes[a]).isNone
  | .route _ _ (some _) | .find _ | .browse _ => false

/-- The checks after the parameters were found good, in order (R106). -/
def admissionRefusal (s : State) (a : Addr) (tag : Tag) (q : Query) : Option LinkReason :=
  if (findEntry s.qt a tag).isSome then some .tagInUse
  else if stationCapacity ≤ liveCount s.qt a then some .busy
  else if tableCapacity ≤ s.qt.entries.length then some .full
  else if targetMissing s q then some .noTarget
  else if originMissing s a q then some .noOrigin
  else none

/-- A new live entry (R109). -/
def newEntry (a : Addr) (tag : Tag) (q : Query) (place : Nat) : QueryEntry :=
  { addr := a, tag := tag, query := q, state := .queued, epoch := none, answer := none, slot := place,
    cancelSlot := none }

/-- An admitted entry stands at the tail and is offered to its arbiter at once (R105, R109). -/
def admitEntry (e : QueryEntry) (s : State) : State := grant { s with qt := { entries := s.qt.entries ++ [e] } }

/-- Admission of a FIND, BROWSE or ROUTE whose parameters read as `query` (R106). -/
def admission (a : Addr) (tag : Tag) (query : Option Query) (place : Nat) (s : State) : State :=
  if s.service ≠ .service then refuseSlot a place tag .notInService s
  else
    match query with
    | none => refuseSlot a place tag .badRequest s
    | some q =>
      match admissionRefusal s a tag q with
      | some reason => refuseSlot a place tag reason s
      | none => admitEntry (newEntry a tag q place) s

/-! ### PAGE (R115, R145, R157) -/

/-- Eight of a list: the page `n` of it. -/
def pageSlice {α : Type} (n : Nat) (l : List α) : List α := (l.drop (8 * (n - 1))).take 8

/-- The page count of an answer. -/
def pageCountOf : Answer → Nat
  | .route h _ => h.pageCount
  | .find h _ => h.pageCount

/-- The page `n` of an answer. -/
def pageOf (n : Nat) : Answer → Downstream
  | .route _ steps => .routePage n (8 * n - 7) (pageSlice n steps)
  | .find _ results => .findPage n (pageSlice n results)

/-- A PAGE is answered at once; a served one reloads the hold countdown (R115). -/
def servePage (a : Addr) (tag : Tag) (n place : Nat) (s : State) : State :=
  match findEntry s.qt a tag with
  | none => refuseSlot a place tag .noSuchTag s
  | some e =>
    match e.state, e.answer with
    | .ready _, some answer =>
      if n = 0 ∨ pageCountOf answer < n then refuseSlot a place tag .badPage s
      else
        answerSlot a place tag (pageOf n answer)
          (updateEntry a tag (fun x => { x with state := .ready s.config.holdTime }) s)
    | _, _ => refuseSlot a place tag .notReady s

/-! ### CANCEL and RELEASE (R116, R117) -/

/-- A CANCEL acts by the state of the entry (R117). -/
def cancelEntry (a : Addr) (tag : Tag) (place : Nat) (s : State) : State :=
  match findEntry s.qt a tag with
  | none => refuseSlot a place tag .noSuchTag s
  | some e =>
    match e.state with
    | .queued | .ready _ => answerSlot a place tag .cancelled (freeEntry e s)
    | .working => updateEntry a tag (fun x => { x with state := .halting .cancel, cancelSlot := some place }) s
    | .halting _ => refuseSlot a place tag .noSuchTag s

/-- RELEASE frees a READY entry and has no effect on any other (R116). -/
def releaseEntry (a : Addr) (tag : Tag) (s : State) : State :=
  match findEntry s.qt a tag with
  | some e => (match e.state with | .ready _ => freeEntry e s | .queued | .working | .halting _ => s)
  | none => s

/-- PAGE and CANCEL are refused NOT_IN_SERVICE outside SERVICE (R171). -/
def inServiceOnly (a : Addr) (tag : Tag) (f : Nat → State → State) (place : Nat) (s : State) : State :=
  if s.service ≠ .service then refuseSlot a place tag .notInService s else f place s

/-! ### The nine requests -/

/-- A request taken from an ENABLED station, or from a DORMANT one for SLEEP (R171). -/
def takeRequest (a : Addr) (tag : Tag) (type : RequestType) (params : List Byte) (s : State) : State :=
  match type with
  | .find => withSlot a (admission a tag (findQueryOf params)) s
  | .browse => withSlot a (admission a tag (browseQueryOf params)) s
  | .route => withSlot a (admission a tag (routeQueryOf params)) s
  | .page => withSlot a (inServiceOnly a tag (servePage a tag (byteAt params 0))) s
  | .cancel => withSlot a (inServiceOnly a tag (cancelEntry a tag)) s
  | .release => releaseEntry a tag s
  | .seen => updateStation a (fun st => { st with pendingMask := st.pendingMask &&& ~~~groupsOf (wordAt params 0) }) s
  | .sleep => changeState a .dormant s
  | .wake => changeState a .enabled s

end Sys2Proof.Machine
end

