-- ==== Sys2Proof/Machine/Reply.lean ====
section
/-! DEFINITION. Replies of a station (R165 to R168): what a good reply does in each station state, misses, and the steps
of the table that a reply or its absence makes. -/

namespace Sys2Proof.Machine

/-! ### Acknowledgment and misses -/

/-- A good reply from a station in service: the message in flight is acknowledged and leaves the queue, the delivery
number changes with it, and the miss count is 0 (R164, R165, R170). -/
def acknowledge (st : Station) : Station :=
  { st with queue := st.queue.filter fun x => !x.inFlight
            delivery := if st.queue.any fun x => x.inFlight then !st.delivery else st.delivery
            misses := 0 }

/-- A miss on a POLL: counted in ENABLED and DORMANT, where the frame's fault limit faults the station (R165). -/
def miss (faultLimit : Nat) (a : Addr) (s : State) : State :=
  if inService (stationAt s a) then
    let t := updateStation a (fun st => { st with misses := st.misses + 1 }) s
    if faultLimit ≤ (stationAt s a).misses + 1 then depart a .faulted t else t
  else s

/-- The record of a station that becomes ENABLED from RESETTING (R168). -/
def enabledRecord (st : Station) : Station :=
  { st with misses := 0, attempts := 0, delivery := false, spacing := 0, raisedSince := false,
            pendingMask := st.subscription }

/-- A good READY reply ends the reset sequence while the countdown is above 0 (R168). -/
def enableStation (a : Addr) (s : State) : State :=
  if 0 < (stationAt s a).countdown then changeState a .enabled (updateStation a enabledRecord s) else s

/-! ### A good reply to a POLL (R165) -/

/-- A request in a good reply: acknowledgment, the way out of DORMANT, and the request itself (R165, R169, R171). A
REQUEST whose bytes are no request is never good. -/
def pollRequest (a : Addr) (tag : Tag) (payload : List Byte) (s : State) : State :=
  match payload with
  | [] => s
  | code :: params =>
    match requestTypeOf code with
    | none => s
    | some type =>
      let acknowledged := updateStation a acknowledge s
      takeRequest a tag type params (if type = .sleep then acknowledged else changeState a .enabled acknowledged)

/-- A good reply to a POLL, by the state of the station (R165). -/
def pollReply (a : Addr) (r : StationReply) (s : State) : State :=
  match (stationAt s a).state with
  | .enabled | .dormant =>
    (match r with
      | .empty => updateStation a acknowledge s
      | .request tag payload => pollRequest a tag payload s
      | .ready => depart a .attached s)
  | .resetting => (match r with | .ready => enableStation a s | .empty | .request _ _ => s)
  | .absent | .attached | .faulted | .disabled => s

/-- A good reply to a PROBE: an ABSENT or FAULTED station passes to ATTACHED (R166). -/
def probeAnswered (a : Addr) (s : State) : State :=
  match (stationAt s a).state with
  | .absent | .faulted => changeState a .attached s
  | .attached | .resetting | .enabled | .dormant | .disabled => s

/-! ### The end of an exchange -/

/-- The exchange of a trunk ends after so many more bit times (R161). -/
def endExchange (t : TrunkNo) (bits : Nat) (s : State) : State :=
  updateTrunk t (fun k => { k with exchange := none, elapsed := k.elapsed + linkMicros k bits }) s

/-- The exchange ends with a reply, good with its content or not good (R165, R166, log 22). -/
def endWith (t : TrunkNo) (x : Exchange) (bits : Nat) (content : Option StationReply) (s : State) : State :=
  let ended := endExchange t bits s
  if x.void then ended
  else
    match x.probe, content with
    | true, some _ => probeAnswered x.station ended
    | true, none => ended
    | false, some r => pollReply x.station r ended
    | false, none => miss (trunkAt s t).settings.faultLimit x.station ended

/-- The reply window closes with no start marker received (R165). -/
def closeWindow (t : TrunkNo) (s : State) : State :=
  match (trunkAt s t).exchange with
  | some x => endWith t x windowBits none s
  | none => s

/-- A reply whose start marker comes `delay` bit times after the message and that takes `length` bytes: `content` reads
it, given the number of the station polled or probed. A start marker after the window is none (R165, log 12). -/
def takeReply (t : TrunkNo) (delay length : Nat) (content : StationNo → Option StationReply) (s : State) : State :=
  if windowBits < delay then closeWindow t s
  else
    match (trunkAt s t).exchange with
    | some x => endWith t x (delay + 10 * length) (content (stationOf x.station)) s
    | none => s

/-- A reply that is as its content says, good when it fits its kind. -/
def takeContent (t : TrunkNo) (delay : Nat) (r : StationReply) (s : State) : State :=
  takeReply t delay (encodeReply 0 r).length (fun _ => if replyFits r then some r else none) s

/-- A REQUEST of a type with its parameters. -/
def requestOf (type : RequestType) (tag : Tag) (params : List Byte) : StationReply :=
  .request tag (requestTypeCode type :: params)

/-- A reply as bytes: without the start marker it is no message, and the window closes (R165, R198). -/
def takeBytes (t : TrunkNo) (delay : Nat) (message : List Byte) (s : State) : State :=
  if message.head? = some 0xC3 then takeReply t delay message.length (fun n => goodReply n message) s
  else closeWindow t s

/-! ### The steps -/

/-- PROBE_REPLY (R166). -/
def execProbeReply (trunk : TrunkNo) (delay : Nat) (content : StationReply) (s : State) :
    Host.Outcome State Fault Refusal := live (takeContent trunk delay content) s

/-- EMPTY_REPLY (R165). -/
def execEmptyReply (trunk : TrunkNo) (delay : Nat) (s : State) : Host.Outcome State Fault Refusal :=
  live (takeContent trunk delay .empty) s

/-- READY_REPLY (R165, R168, R169). -/
def execReadyReply (trunk : TrunkNo) (delay : Nat) (s : State) : Host.Outcome State Fault Refusal :=
  live (takeContent trunk delay .ready) s

/-- BAD_REPLY (R165). -/
def execBadReply (trunk : TrunkNo) (delay : Nat) (message : List Byte) (s : State) :
    Host.Outcome State Fault Refusal := live (takeBytes trunk delay message) s

/-- REPLY_WINDOW_CLOSE (R165). -/
def execReplyWindowClose (trunk : TrunkNo) (s : State) : Host.Outcome State Fault Refusal :=
  live (closeWindow trunk) s

/-- FIND_REQUEST (R106, R171). -/
def execFindRequest (trunk : TrunkNo) (delay : Nat) (tag : Tag) (params : List Byte) (s : State) :
    Host.Outcome State Fault Refusal := live (takeContent trunk delay (requestOf .find tag params)) s

/-- BROWSE_REQUEST (R106, R171). -/
def execBrowseRequest (trunk : TrunkNo) (delay : Nat) (tag : Tag) (params : List Byte) (s : State) :
    Host.Outcome State Fault Refusal := live (takeContent trunk delay (requestOf .browse tag params)) s

/-- ROUTE_REQUEST (R106, R171). -/
def execRouteRequest (trunk : TrunkNo) (delay : Nat) (tag : Tag) (params : List Byte) (s : State) :
    Host.Outcome State Fault Refusal := live (takeContent trunk delay (requestOf .route tag params)) s

/-- PAGE_REQUEST (R115). -/
def execPageRequest (trunk : TrunkNo) (delay : Nat) (tag : Tag) (params : List Byte) (s : State) :
    Host.Outcome State Fault Refusal := live (takeContent trunk delay (requestOf .page tag params)) s

/-- CANCEL_REQUEST (R117). -/
def execCancelRequest (trunk : TrunkNo) (delay : Nat) (tag : Tag) (params : List Byte) (s : State) :
    Host.Outcome State Fault Refusal := live (takeContent trunk delay (requestOf .cancel tag params)) s

/-- RELEASE_REQUEST (R116). -/
def execReleaseRequest (trunk : TrunkNo) (delay : Nat) (tag : Tag) (params : List Byte) (s : State) :
    Host.Outcome State Fault Refusal := live (takeContent trunk delay (requestOf .release tag params)) s

/-- SEEN_REQUEST (R174). -/
def execSeenRequest (trunk : TrunkNo) (delay : Nat) (tag : Tag) (params : List Byte) (s : State) :
    Host.Outcome State Fault Refusal := live (takeContent trunk delay (requestOf .seen tag params)) s

/-- SLEEP_REQUEST (R169). -/
def execSleepRequest (trunk : TrunkNo) (delay : Nat) (tag : Tag) (params : List Byte) (s : State) :
    Host.Outcome State Fault Refusal := live (takeContent trunk delay (requestOf .sleep tag params)) s

/-- WAKE_REQUEST (R169). -/
def execWakeRequest (trunk : TrunkNo) (delay : Nat) (tag : Tag) (params : List Byte) (s : State) :
    Host.Outcome State Fault Refusal := live (takeContent trunk delay (requestOf .wake tag params)) s

end Sys2Proof.Machine
end

