-- ==== Sys2Proof/Machine/Load.lean ====
section
/-! DEFINITION. The Load Monitor (chapter 4): congestion state and weight, episodes, the congested count and alarm,
and freshness. -/

namespace Sys2Proof.Machine

/-- A load entry at its creation values (R77). -/
def newLoadEntry : LoadEntry :=
  { reading := 0, threshold := 128, freshness := .none, age := 0, congested := false, weight := 16, episodes := 0 }

/-- A load entry as RESTART SERVICE leaves it; the threshold is kept (R88). -/
def restartEntry (e : LoadEntry) : LoadEntry := { newLoadEntry with threshold := e.threshold }

/-- The leave level: T - H, and 0 when H is at least T (R78). -/
def leaveLevel (threshold hysteresis : Nat) : Nat := threshold - hysteresis

/-- The congestion state after reading `q` (R78). -/
def congestedAfter (e : LoadEntry) (hysteresis q : Nat) : Bool :=
  if e.congested then decide (leaveLevel e.threshold hysteresis < q) else decide (e.threshold < q)

/-- The live weight of a state at a reading: 16, or 16 plus the smaller of 48 and a quarter of the excess (R79). -/
def weightAt (congested : Bool) (q level : Nat) : Nat := if congested then 16 + min 48 ((q - level) / 4) else 16

/-- An entry after a reading is taken (R78, R79, R81, R84). -/
def takeReading (e : LoadEntry) (hysteresis q : Nat) : LoadEntry :=
  let after := congestedAfter e hysteresis q
  { e with
    reading := q, freshness := .fresh, age := 0, congested := after
    weight := weightAt after q (leaveLevel e.threshold hysteresis)
    episodes := if after && !e.congested then min 255 (e.episodes + 1) else e.episodes }

/-- A rise of C, with the alarm test (R82, R83). The result says whether CONGESTION_ALARM is set. -/
def countRises (alarmLevel : Nat) (lm : LoadMonitor) : LoadMonitor × Bool :=
  let c := lm.congestedCount + 1
  let trips := !lm.tripped && decide (0 < alarmLevel) && decide (alarmLevel ≤ c)
  ({ lm with congestedCount := c, tripped := lm.tripped || trips }, trips)

/-- A fall of C, with the alarm test (R82, R83). -/
def countFalls (alarmLevel : Nat) (lm : LoadMonitor) : LoadMonitor :=
  let c := lm.congestedCount - 1
  { lm with congestedCount := c, tripped := lm.tripped && decide (alarmLevel ≤ c) }

/-- The alarm after a SET CONFIG is applied; the flag is not set (R83). -/
def alarmAfterConfig (alarmLevel : Nat) (lm : LoadMonitor) : LoadMonitor :=
  { lm with tripped := decide (0 < alarmLevel) && decide (alarmLevel ≤ lm.congestedCount) }

/-- One pair of a LOAD: a reading for an in-use segment is taken, one for a free number is ignored (R85). -/
def takePair (segment q : Nat) (s : State) : State :=
  match tableGet s.lm.entries segment with
  | none => s
  | some e =>
    let e' := takeReading e s.config.hysteresis q
    let lm := { s.lm with entries := tablePut s.lm.entries segment e' }
    if e'.congested && !e.congested then
      let (lm', trips) := countRises s.config.alarmLevel lm
      if trips then raiseFlag congestionAlarm { s with lm := lm' } else { s with lm := lm' }
    else if e.congested && !e'.congested then { s with lm := countFalls s.config.alarmLevel lm }
    else { s with lm := lm }

/-- The pairs of a LOAD in the order of the list (R85). -/
def takePairs : List (Nat × Nat) → State → State
  | [], s => s
  | (segment, q) :: rest, s => takePairs rest (takePair segment q s)

/-- The load entry of a segment that comes into use (R77). -/
def createEntry (segment : Nat) (lm : LoadMonitor) : LoadMonitor :=
  { lm with entries := tablePut lm.entries segment newLoadEntry }

/-- The load entry of a removed segment discarded; C falls with a CONGESTED one (R77, R82). -/
def discardEntry (alarmLevel segment : Nat) (lm : LoadMonitor) : LoadMonitor :=
  let lm' := { lm with entries := tableErase lm.entries segment }
  match tableGet lm.entries segment with
  | some e => if e.congested then countFalls alarmLevel lm' else lm'
  | none => lm'

/-- The age of an entry after a second event, while it is FRESH (R84). -/
def nextAge (e : LoadEntry) : Nat := min 255 (e.age + 1)

/-- A second event makes the entry STALE: it is FRESH, the limit in force is not 0, and the age, after the rise, has
reached it (R84). -/
def goesStale (staleLimit : Nat) (e : LoadEntry) : Bool :=
  e.freshness == .fresh && decide (0 < staleLimit) && decide (staleLimit ≤ nextAge e)

/-- A second event at one entry: a FRESH entry ages, and becomes STALE at the limit in force (R84). -/
def ageEntry (staleLimit : Nat) (e : LoadEntry) : LoadEntry :=
  if e.freshness = .fresh then
    { e with age := nextAge e, freshness := if goesStale staleLimit e then .stale else .fresh }
  else e

/-- A second event at every entry; STALE_READING is set when one or more become STALE (R84). -/
def ageReadings (s : State) : State :=
  let aged := { s with lm := { s.lm with entries := tableMap (fun _ e => ageEntry s.config.staleLimit e) s.lm.entries } }
  if s.lm.entries.any fun p => goesStale s.config.staleLimit p.2 then raiseFlag staleReading aged else aged

/-- The congestion weight of a segment (R66). -/
def liveWeight (lm : LoadMonitor) (segment : Nat) : Nat := ((tableGet lm.entries segment).map (·.weight)).getD 16

end Sys2Proof.Machine
end

