-- ==== Sys2Proof/Machine/Stage.lean ====
section
/-! DEFINITION. The Change Stage (chapter 3): admission to the staged queue, the scheduled list and its passes, the clock
and the events of a second, with the steps that the table lists for them. -/

namespace Sys2Proof.Machine

/-! ### The staged queue (R47, R48) -/

/-- The queue holds 64 entries (R48). -/
def queueFull (cs : ChangeStage) : Bool := decide (stagedCapacity ≤ cs.queue.length)

/-- An edit joins the tail of the queue with the next sequence number (R47). -/
def enqueue (edit : Edit) (cs : ChangeStage) : ChangeStage :=
  { cs with queue := cs.queue ++ [{ edit := edit, seq := cs.nextSeq }], nextSeq := (cs.nextSeq + 1) % 65536 }

/-! ### The scheduled list (R53) -/

/-- The lowest number of 1 to 255 that no entry holds (R53). -/
def freeNumber (schedule : List Scheduled) : Nat :=
  (((List.range 255).map fun n => n + 1).find? fun n => !schedule.any fun e => e.number == n).getD 0

/-- A new entry goes after every entry whose minute is less than or equal to its own (R53). -/
def scheduleInsert (e : Scheduled) : List Scheduled → List Scheduled
  | [] => [e]
  | f :: rest => if f.minute ≤ e.minute then f :: scheduleInsert e rest else e :: f :: rest

/-! ### Serving the list (R56) -/

/-- What a pass leaves: the Change Stage, whether an urgent entry moved, and whether an entry became DUE. -/
structure Served where
  cs : ChangeStage
  urgent : Bool
  becameDue : Bool
  deriving DecidableEq, Repr

/-- One entry of a pass: it moves while the queue has room, else it stays with DUE set (R56). -/
def serveEntry (served : Scheduled → Bool) (r : Served) (e : Scheduled) : Served :=
  if served e then
    if queueFull r.cs then
      { r with cs := { r.cs with schedule := r.cs.schedule ++ [{ e with due := true }] },
               becameDue := r.becameDue || !e.due }
    else { r with cs := enqueue e.edit r.cs, urgent := r.urgent || e.urgent }
  else { r with cs := { r.cs with schedule := r.cs.schedule ++ [e] } }

/-- One pass over the list, in list order. -/
def servePass (served : Scheduled → Bool) (cs : ChangeStage) : Served :=
  cs.schedule.foldl (serveEntry served) { cs := { cs with schedule := [] }, urgent := false, becameDue := false }

/-- One pass in the part: an entry that becomes DUE sets SCHEDULE_DUE (R56, log 26). The result says whether an urgent
entry moved. -/
def passOf (served : Scheduled → Bool) (s : State) : State × Bool :=
  let r := servePass served s.cs
  let t := { s with cs := r.cs }
  (if r.becameDue then raiseFlag scheduleDue t else t, r.urgent)

/-- The pass of the DUE entries (R56). -/
def duePass (s : State) : State × Bool := passOf (fun e => e.due) s

/-- The two passes of a minute event or a forward SET TIME (R56). -/
def serveSchedule (reached : Nat → Bool) (s : State) : State × Bool :=
  let first := duePass s
  let second := passOf (fun e => !e.due && reached e.minute) first.1
  (second.1, first.2 || second.2)

/-- At most one turn request for the moves of one event. -/
def requestIf (wanted : Bool) (s : State) : State := if wanted then requestTurn s else s

/-! ### The clock (R50 to R52) -/

/-- The minute after `m` (R50). -/
def nextMinute (m : Nat) : Nat := if m = 1439 then 0 else m + 1

/-- A minute event with the wrap of the seconds that makes it (R50, R51). -/
def minuteEvent (s : State) : State :=
  let rollover := s.cs.clock.minute == 1439
  let n := nextMinute s.cs.clock.minute
  let ticked :=
    { s with
      cs := { s.cs with clock := { s.cs.clock with minute := n, seconds := 0 } }
      ec := { s.ec with rollover := s.ec.rollover || rollover } }
  let r := serveSchedule (fun m => m == n) ticked
  requestIf (rollover || r.2) r.1

/-- SET TIME to a minute in range (R52). -/
def setTime (n : Nat) (s : State) : State :=
  let old := s.cs.clock
  let written := { s with cs := { s.cs with clock := { set := true, minute := n, seconds := 0 } } }
  if old.set = true ∧ old.minute < n then
    let r := serveSchedule (fun m => decide (old.minute < m) && decide (m ≤ n)) written
    requestIf r.2 r.1
  else written

/-- The second event at the clock: the seconds advance while it is SET, and their wrap makes the minute event (R50). -/
def tickClock (s : State) : State :=
  if s.cs.clock.set then
    if 59 ≤ s.cs.clock.seconds then minuteEvent s
    else { s with cs := { s.cs with clock := { s.cs.clock with seconds := s.cs.clock.seconds + 1 } } }
  else s

/-- The auto-turn countdown counts while the part is in SERVICE and the EC STEADY; reaching 0 is an expiry (R59). -/
def countAutoTurn (mode : Service) (ec : EpochController) : EpochController :=
  if mode = .service ∧ ec.turn = .steady ∧ 0 < ec.countdown then
    { ec with countdown := ec.countdown - 1, expiring := ec.expiring || ec.countdown == 1 }
  else ec

/-- The hold countdown of a READY entry falls by 1 (R114). -/
def countHold (e : QueryEntry) : QueryEntry :=
  match e.state with
  | .ready hold => { e with state := .ready (hold - 1) }
  | .queued | .working | .halting _ => e

/-- What a second event counts after the clock's work: auto-turn, stale ages and hold countdowns (R59, R84, R114). -/
def countSecond (s : State) : State :=
  ageReadings { s with ec := countAutoTurn s.service s.ec, qt := { entries := s.qt.entries.map countHold } }

/-- A whole second event; a minute event's work comes first (R50, R59). -/
def secondEvent (s : State) : State := countSecond (tickClock s)

/-! ### The steps -/

/-- SECOND_EVENT (R50). -/
def execSecondEvent (s : State) : Host.Outcome State Fault Refusal := live secondEvent s

/-- MINUTE_EVENT: the second event at which the seconds of a SET clock wrap (R50, R51, log 5). -/
def execMinuteEvent (s : State) : Host.Outcome State Fault Refusal :=
  live (fun s => whenever (s.cs.clock.set = true ∧ s.cs.clock.seconds = 59) secondEvent s) s

/-- AUTO_TURN_EXPIRY: the countdown has reached 0. None arrives during a turn (R59, R72). -/
def execAutoTurnExpiry (s : State) : Host.Outcome State Fault Refusal :=
  live (fun s => whenever (s.ec.expiring = true ∧ s.ec.turn = .steady)
    (fun s => requestTurn { s with ec := { s.ec with expiring := false } }) s) s

/-- STALE_EXPIRY: the second event at which the entry of a segment becomes STALE (R84, log 5). -/
def execStaleExpiry (segment : Nat) (s : State) : Host.Outcome State Fault Refusal :=
  live (fun s => whenever ((tableGet s.lm.entries segment).any (goesStale s.config.staleLimit) = true) secondEvent s) s

/-- HOLD_EXPIRY: the hold countdown of a READY entry has reached 0, and the entry is freed silently (R114). -/
def execHoldExpiry (station : Addr) (tag : Tag) (s : State) : Host.Outcome State Fault Refusal :=
  live (fun s => match findEntry s.qt station tag with
    | some e => if e.state = .ready 0 then freeEntry e s else s
    | none => s) s

end Sys2Proof.Machine
end

