-- ==== Sys2Proof/Machine/Turn.lean ====
section
/-! DEFINITION. Application of edits (R63 to R65, R73) and the steps of a turn (chapter 3). -/

namespace Sys2Proof.Machine

/-! ### Application tests -/

/-- The kind of a node number; none for a free entry. -/
def kindOf (wg : Graph) (n : Nat) : Option NodeKind := (tableGet wg.nodes n).map fun x => x.kind

/-- The status is RELOCATED and the forward names a free slot (R63). -/
def forwardFails (ds : Directory) (status : ListingStatus) (forward : Option Nat) : Bool :=
  status == .relocated && (match forward with | some f => !inUse ds.listings f | none => true)

/-- The tests of PUT LISTING (R63). -/
def putListingTest (s : State) (f : ListingForm) : Option Reason :=
  if f.entrances.any fun n => !inUse s.wg.nodes n then some .noSuchNode
  else if f.entrances.any fun n => kindOf s.wg n != some .entrance then some .notEntrance
  else if forwardFails s.ds f.status f.forward then some .noSuchListing
  else none

/-- The tests of SET LISTING STATUS (R63). -/
def setStatusTest (s : State) (n : Nat) (status : ListingStatus) (forward : Option Nat) : Option Reason :=
  if !inUse s.ds.listings n then some .noSuchListing
  else if forwardFails s.ds status forward then some .noSuchListing
  else none

/-- The kind of an in-use node changes away from a use it has (R64, orders 2 to 4). -/
def kindHeld (s : State) (n : Nat) (old new : NodeKind) : Bool :=
  match old with
  | .entrance => new != .entrance && namedAsEntrance s.ds n
  | .kiosk => new != .kiosk && isHome s.wg n
  | .exit .usable => !isExit new
  | .exit .blocked | .junction | .landing | .amenity _ => false

/-- The tests of PUT NODE (R64). -/
def putNodeTest (s : State) (n : Nat) (f : NodeForm) : Option Reason :=
  match tableGet s.wg.nodes n with
  | none => none
  | some x =>
    if x.floor ≠ f.floor ∧ x.adjacency ≠ [] then some .nodeInUse
    else if kindHeld s n x.kind f.kind then some .nodeInUse
    else none

/-- The tests of REMOVE NODE (R64). -/
def removeNodeTest (s : State) (n : Nat) : Option Reason :=
  match tableGet s.wg.nodes n with
  | none => some .noSuchNode
  | some x =>
    if x.adjacency ≠ [] ∨ namedAsEntrance s.ds n = true ∨ isHome s.wg n = true then some .nodeInUse else none

/-- The end floors do not agree with the kind (R64). -/
def floorsFail (wg : Graph) (f : SegmentForm) : Bool :=
  if horizontal f.kind then floorOf wg f.endA != floorOf wg f.endB else floorOf wg f.endA == floorOf wg f.endB

/-- An end that segment `n` does not touch yet holds 6 segments (R64). -/
def endFull (wg : Graph) (n e : Nat) : Bool :=
  !((tableGet wg.segments n).any fun g => touches g.toSegmentForm e) && decide (degreeCapacity ≤ degree wg e)

/-- The tests of PUT SEGMENT (R64). -/
def putSegmentTest (wg : Graph) (n : Nat) (f : SegmentForm) : Option Reason :=
  if !inUse wg.nodes f.endA || !inUse wg.nodes f.endB then some .noSuchNode
  else if floorsFail wg f then some .floorMismatch
  else if endFull wg n f.endA || endFull wg n f.endB then some .degreeFull
  else none

/-- The tests of SET EXIT (R64). -/
def setExitTest (wg : Graph) (n : Nat) : Option Reason :=
  match tableGet wg.nodes n with
  | none => some .noSuchNode
  | some x => if isExit x.kind then none else some .notExit

/-- The tests of SET HOME (R65). -/
def setHomeTest (wg : Graph) (node : Option Nat) : Option Reason :=
  match node with
  | none => none
  | some n =>
    if !inUse wg.nodes n then some .noSuchNode
    else if kindOf wg n != some .kiosk then some .notKiosk
    else none

/-- The reason an edit is rejected with, none when it passes its application tests (R63 to R65). -/
def editTest (edit : Edit) (s : State) : Option Reason :=
  match edit with
  | .putListing _ f => putListingTest s f
  | .setListingStatus n status forward => setStatusTest s n status forward
  | .retireListing n => if inUse s.ds.listings n then none else some .noSuchListing
  | .putNode n f => putNodeTest s n f
  | .removeNode n => removeNodeTest s n
  | .putSegment n f => putSegmentTest s.wg n f
  | .setSegmentState n _ => if inUse s.wg.segments n then none else some .noSuchSegment
  | .removeSegment n => if inUse s.wg.segments n then none else some .noSuchSegment
  | .setExit n _ => setExitTest s.wg n
  | .setHome _ node => setHomeTest s.wg node
  | .setConfig _ => none

/-! ### Application -/

/-- PUT LISTING applied, with the groups it raises (R12, R13). -/
def applyPutListing (n : Nat) (f : ListingForm) (s : State) : State × Groups :=
  match tableGet s.ds.listings n with
  | none => ({ s with ds := fillListing s.ds n f }, groupBit 8)
  | some old => ({ s with ds := replaceListing s.ds n old f }, replaceGroups old f)

/-- SET LISTING STATUS applied (R14). -/
def applySetStatus (n : Nat) (status : ListingStatus) (forward : Option Nat) (s : State) : State × Groups :=
  match tableGet s.ds.listings n with
  | none => (s, 0)
  | some old => ({ s with ds := setStatus s.ds n old status forward }, statusGroups old status forward)

/-- PUT NODE applied (R39, R43). -/
def applyPutNode (n : Nat) (f : NodeForm) (s : State) : State × Groups :=
  ({ s with wg := putNode s.wg n f },
   match tableGet s.wg.nodes n with
   | none => groupBit f.floor
   | some x => if x.toNodeForm = f then 0 else groupBit x.floor ||| groupBit f.floor)

/-- PUT SEGMENT applied; a filled entry gets its load entry (R40, R43, R77). -/
def applyPutSegment (n : Nat) (f : SegmentForm) (s : State) : State × Groups :=
  match tableGet s.wg.segments n with
  | none => ({ s with wg := fillSegment s.wg n f, lm := createEntry n s.lm }, endGroups s.wg f)
  | some old =>
    ({ s with wg := replaceSegment s.wg n old f },
     if old.toSegmentForm = f then 0 else endGroups s.wg old.toSegmentForm ||| endGroups s.wg f)

/-- SET SEGMENT STATE applied (R41, R43). -/
def applySetSegmentState (n : Nat) (state : SegmentState) (s : State) : State × Groups :=
  match tableGet s.wg.segments n with
  | none => (s, 0)
  | some old =>
    ({ s with wg := setSegmentState s.wg n old state },
     if old.state = state then 0 else endGroups s.wg old.toSegmentForm)

/-- REMOVE SEGMENT applied; the load entry goes with it (R41, R43, R77). -/
def applyRemoveSegment (n : Nat) (s : State) : State × Groups :=
  match tableGet s.wg.segments n with
  | none => (s, 0)
  | some old =>
    ({ s with wg := removeSegment s.wg n old, lm := discardEntry s.config.alarmLevel n s.lm },
     endGroups s.wg old.toSegmentForm)

/-- SET EXIT applied (R42, R43). -/
def applySetExit (n : Nat) (state : ExitState) (s : State) : State × Groups :=
  match tableGet s.wg.nodes n with
  | none => (s, 0)
  | some old =>
    ({ s with wg := setExit s.wg n old state }, if old.kind = .exit state then 0 else groupBit old.floor)

/-- An edit that has passed its tests applied whole, with the notice groups it raises in a turn (R12 to R15, R39 to R43,
R65, R83). -/
def applyEdit (edit : Edit) (s : State) : State × Groups :=
  match edit with
  | .putListing n f => applyPutListing n f s
  | .setListingStatus n status forward => applySetStatus n status forward s
  | .retireListing n => ({ s with ds := retireListing s.ds n }, groupBit 8)
  | .putNode n f => applyPutNode n f s
  | .removeNode n => ({ s with wg := removeNode s.wg n }, floorGroup s.wg n)
  | .putSegment n f => applyPutSegment n f s
  | .setSegmentState n state => applySetSegmentState n state s
  | .removeSegment n => applyRemoveSegment n s
  | .setExit n state => applySetExit n state s
  | .setHome a node => ({ s with wg := setHome s.wg a node }, 0)
  | .setConfig c => ({ s with config := c, lm := alarmAfterConfig c.alarmLevel s.lm }, groupBit 10)

/-! ### The steps of a turn -/

/-- The work of the turn in flight replaced. -/
def withWork (w : TurnWork) (s : State) : State := { s with ec := { s.ec with work := w } }

/-- The end of DRAINING is reached: both engines and the tree builder are idle (R60). -/
def drained (s : State) : Bool :=
  s.ec.turn == .draining && s.re.work.isNone && s.fe.work.isNone && s.eu.unit != .building

/-- The listings after rollover work (R19, R62). -/
def rolloverListings (frozen : Bool) (listings : List (Nat × Listing)) : List (Nat × Listing) :=
  tableMap (fun _ l => if frozen then reopen l else halveCount (reopen l)) listings

/-- The group rollover work raises: 9 when a listing returned to OPEN (R62). -/
def rolloverGroups (listings : List (Nat × Listing)) : Groups :=
  if listings.any fun p => p.2.status == .closedToday then groupBit 9 else 0

/-- APPLYING begins: N is fixed and pending rollover work is done (R61, R62). -/
def beginApplying (s : State) : State :=
  let w := { TurnWork.initial with remaining := s.cs.queue.length }
  if s.ec.rollover then
    { s with
      ds := { s.ds with listings := rolloverListings s.config.frozen s.ds.listings }
      ec := { s.ec with turn := .applying, rollover := false,
                        work := { w with groups := rolloverGroups s.ds.listings } } }
  else { s with ec := { s.ec with turn := .applying, work := w } }

/-- The work after an edit was applied with these groups. -/
def countApplied (groups : Groups) (w : TurnWork) : TurnWork :=
  { w with remaining := w.remaining - 1, applied := w.applied + 1, groups := w.groups ||| groups }

/-- The work after an edit was rejected; the first rejection is kept (R71). -/
def countRejected (seq : Nat) (reason : Reason) (w : TurnWork) : TurnWork :=
  { w with remaining := w.remaining - 1, rejected := w.rejected + 1,
           first := match w.first with | some f => some f | none => some (seq, reason) }

/-- The head of the queue is taken out, tested, and applied or rejected whole (R61). -/
def takeHead (s : State) : State :=
  match s.cs.queue with
  | [] => s
  | x :: rest =>
    let t := { s with cs := { s.cs with queue := rest } }
    match editTest x.edit t with
    | some reason => withWork (countRejected x.seq reason t.ec.work) t
    | none =>
      let r := applyEdit x.edit t
      withWork (countApplied r.2 r.1.ec.work) r.1

/-- Weight sampling, the DUE pass, and the passage to VALIDATING (R61, R66, R67). -/
def sampleAndValidate (s : State) : State :=
  let sampled := { s with wg := sampleWeights (liveWeight s.lm) s.wg }
  let r := duePass sampled
  let t := requestIf r.2 r.1
  { t with ec := { t.ec with turn := .validating, work := { t.ec.work with validation := .repair } } }

/-- Relocation repair: each listing changed raises group 9 (R8, R67). -/
def repairStep (s : State) : State :=
  let listings := repairAll s.ds.listings
  let groups := if listings = s.ds.listings then 0 else groupBit 9
  withWork { s.ec.work with groups := s.ec.work.groups ||| groups, validation := .floods }
    { s with ds := { s.ds with listings := listings } }

/-- A listing with its reach flags written from the nodes each flood marked (R21, R68). -/
def markReach (standard stepFree : List Nat) (l : Listing) : Listing :=
  { l with reachStandard := l.entrances.any fun n => standard.contains n,
           reachStepFree := l.entrances.any fun n => stepFree.contains n }

/-- The floods, the reach flags and the unreachable counts (R68). -/
def floodStep (s : State) : State :=
  let listings := tableMap (fun _ l => markReach (flood .standard s.wg) (flood .stepFree s.wg) l) s.ds.listings
  let groups := if listings = s.ds.listings then 0 else groupBit 8
  withWork
    { s.ec.work with
      groups := s.ec.work.groups ||| groups, validation := .completion
      unreachableStandard := (listings.filter fun p => !p.2.reachStandard).length
      unreachableStepFree := (listings.filter fun p => !p.2.reachStepFree).length }
    { s with ds := { s.ds with listings := listings } }

/-- The report of a turn that completes with epoch `epoch` (R71). -/
def reportOf (epoch : Nat) (w : TurnWork) : TurnReport :=
  { epoch := epoch, applied := w.applied, rejected := w.rejected, first := w.first, groups := w.groups,
    unreachableStandard := w.unreachableStandard, unreachableStepFree := w.unreachableStepFree }

/-- The Epoch Controller at completion, STEADY again (R70). -/
def completedController (autoTurn : Nat) (ec : EpochController) : EpochController :=
  let epoch := (ec.epoch + 1) % 65536
  { ec with epoch := epoch, turn := .steady, countdown := autoTurn, report := reportOf epoch ec.work,
            work := TurnWork.initial }

/-- What the EC does at completion, and the passage from STARTING to SERVICE (R70, R193). -/
def completeTurn (s : State) : State :=
  raiseFlag turnDone (raiseGroups s.ec.work.groups
    { s with ec := completedController s.config.autoTurn s.ec
             service := match s.service with | .starting => .service | .loading => .loading | .service => .service })

/-- What follows completion, by the latch and turn-wanted (R70). -/
def afterTurn (s : State) : State :=
  if s.eu.latch then grant (startBuild s)
  else if s.ec.wanted then { s with ec := startWanted s.ec }
  else grant s

/-- DRAIN_COMPLETE (R60 to R62, log 3). -/
def execDrainComplete (s : State) : Host.Outcome State Fault Refusal :=
  live (fun s => whenever (drained s = true) beginApplying s) s

/-- APPLY_STAGED_EDIT (R61). -/
def execApplyStagedEdit (s : State) : Host.Outcome State Fault Refusal :=
  live (fun s => whenever (s.ec.turn = .applying ∧ 0 < s.ec.work.remaining) takeHead s) s

/-- WEIGHT_SAMPLING (R66, R61). -/
def execWeightSampling (s : State) : Host.Outcome State Fault Refusal :=
  live (fun s => whenever (s.ec.turn = .applying ∧ s.ec.work.remaining = 0) sampleAndValidate s) s

/-- RELOCATION_REPAIR (R67). -/
def execRelocationRepair (s : State) : Host.Outcome State Fault Refusal :=
  live (fun s => whenever (s.ec.turn = .validating ∧ s.ec.work.validation = .repair) repairStep s) s

/-- REACHABILITY_FLOODS (R68). -/
def execReachabilityFloods (s : State) : Host.Outcome State Fault Refusal :=
  live (fun s => whenever (s.ec.turn = .validating ∧ s.ec.work.validation = .floods) floodStep s) s

/-- TURN_COMPLETE (R70). -/
def execTurnComplete (s : State) : Host.Outcome State Fault Refusal :=
  live (fun s => whenever (s.ec.turn = .validating ∧ s.ec.work.validation = .completion)
    (fun s => afterTurn (completeTurn s)) s) s

end Sys2Proof.Machine
end

