-- ==== Sys2Proof/Machine/EditPort.lean ====
section
/-! DEFINITION. The Edit Port (chapter 11): taking a frame, the checks made before a command, its reply, and both
resets of the whole part. -/

namespace Sys2Proof.Machine

/-! ### Replies -/

/-- OK with data (R190). -/
def okReply (data : List Byte) : FormedReply := { status := .ok, data := data }

/-- REFUSED with its reason (R190). -/
def refusal (reason : Reason) : FormedReply := { status := .refused, data := [byteOf (reasonCode reason)] }

/-- STAGED with the sequence number (R190). -/
def stagedReply (seq : Nat) : FormedReply := { status := .staged, data := be16 seq }

/-- What a command does to the part and what its reply is formed from; none for FULL RESET alone (R194). -/
abbrev Taken := State × Option Forming

/-- A reply known whole when the command has acted. -/
def replying (r : FormedReply) (s : State) : Taken := (s, some (.fixed r))

/-- A command that is taken and answers OK with no data. -/
def done (s : State) : Taken := replying (okReply []) s

/-- A command that answers OK with data. -/
def answer (data : List Byte) (s : State) : Taken := replying (okReply data) s

/-- A refused command changes nothing (R190). -/
def refuse (reason : Reason) (s : State) : Taken := replying (refusal reason) s

/-! ### Frames (R188, R189) -/

/-- The bytes on MISO in a frame. -/
def driveMiso (bytes : List Byte) (s : State) : State := { s with ep := { s.ep with miso := bytes } }

/-- A frame that ends while the held status is PENDING is discarded unchecked (R189). -/
def discardFrame (s : State) : State :=
  { s with ep := { s.ep with reply := { s.ep.reply with overrun := true }, discarded := true } }

/-- The held status becomes PENDING, with no data (R189). -/
def holdPending (s : State) : State :=
  { s with ep := { s.ep with reply := { s.ep.reply with status := .pending, data := [] } } }

/-- The reply of the command taken, to be formed (R189, log 14). -/
def keepForming (t : Taken) : State := { t.1 with ep := { t.1.ep with forming := t.2 } }

/-- A command frame with the check of its length and the command's own action (R188, R189). -/
def takeFrame (fits : List Byte → Bool) (act : List Byte → State → Taken) (frame : List Byte) (s : State) : State :=
  let driven := driveMiso (List.replicate (frame.length + 1) 0) s
  if s.ep.reply.status = .pending then discardFrame driven
  else
    let held := holdPending driven
    keepForming (match frameRefusal fits frame with
      | some reason => refuse reason held
      | none => act (payloadOf frame) held)

/-- The length of a command of fixed payload. -/
def exactly (n : Nat) (p : List Byte) : Bool := decide (p.length = n)

/-- The action of a frame whose kind is no command of the part: checks 1 and 2 of R188. -/
def takeUnknown (frame : List Byte) (s : State) : State :=
  let driven := driveMiso (List.replicate (frame.length + 1) 0) s
  if s.ep.reply.status = .pending then discardFrame driven
  else
    keepForming (refuse (if frameWhole frame then .unknownCommand else .badLength) (holdPending driven))

/-- The addresses of a READ STATION CHANGES with the states of their stations as now held (R177). -/
def changeRecords (s : State) (stations : List Addr) : List Byte :=
  (stations.map fun a => [encodeAddr a, byteOf (stationStateCode (stationAt s a).state)]).flatten

/-- The reply as it is formed now: open-now under the clock as now held, station states as now held (R11, R22, R177). -/
def formedReply (s : State) : Forming → FormedReply
  | .fixed r => r
  | .listing n l => okReply (encodeListing n l (openNow l s.cs.clock.set s.cs.clock.minute))
  | .changes stations => okReply (changeRecords s stations)

/-- The reply formed replaces the held one; its overrun flag says whether a frame was discarded meanwhile (R189). -/
def formReply (s : State) : State :=
  match s.ep.forming with
  | none => s
  | some f =>
    let r := formedReply s f
    { s with ep := { s.ep with reply := { status := r.status, overrun := s.ep.discarded, data := r.data },
                               forming := none, discarded := false } }

/-- A REPLY frame (R189). -/
def readReply (clocked : Nat) (s : State) : State := driveMiso (replyFrame s.ep.reply clocked) s

/-! ### Full reset (R194) -/

/-- Every block at its full-reset values. The waiting commands, what was driven on MISO, and the work arrays and
frontier (R146) stay. -/
def fullReset (s : State) : State :=
  { State.reset with
    pending := s.pending
    ep := { State.reset.ep with miso := s.ep.miso }
    re := { work := none, search := s.re.search } }

/-- RESET driven low: the part is held reset (R194). -/
def holdReset (s : State) : State := { s with resetHeld := true }

/-- RESET released after it was held low (R194, log 15). -/
def releaseReset (s : State) : State := if s.resetHeld then fullReset s else s

/-! ### The steps -/

/-- REPLY (R189). -/
def execReply (clocked : Nat) (s : State) : Host.Outcome State Fault Refusal := live (readReply clocked) s

/-- REPLY_FORMED (R189). -/
def execReplyFormed (s : State) : Host.Outcome State Fault Refusal := live formReply s

/-- RESET_ASSERT (R194). -/
def execResetAssert (s : State) : Host.Outcome State Fault Refusal := .next (holdReset s)

/-- RESET_RELEASE (R194). -/
def execResetRelease (s : State) : Host.Outcome State Fault Refusal := .next (releaseReset s)

end Sys2Proof.Machine
end

