-- ==== Sys2Proof/Machine/Commands.lean ====
section
/-! DEFINITION. The action of every command of the edit port, given its payload, with the checks its own rule states. -/

namespace Sys2Proof.Machine

/-! ### Edits (R48, R73) -/

/-- An edit that passes its form check: applied directly in LOADING, else staged. -/
def takeEdit (edit : Edit) (urgent : Bool) (s : State) : Taken :=
  match s.service with
  | .loading =>
    (match editTest edit s with
      | some reason => refuse reason s
      | none => done (applyEdit edit s).1)
  | .starting | .service =>
    if queueFull s.cs then refuse .queueFull s
    else replying (stagedReply s.cs.nextSeq) (requestIf urgent { s with cs := enqueue edit s.cs })

/-- An edit command (R48, R73). -/
def actEdit (kind : EditKind) (p : List Byte) (s : State) : Taken :=
  match editOf kind p with
  | none => refuse .badField s
  | some edit => takeEdit edit (urgentOf p) s

/-! ### Schedule and turns -/

/-- The edit that a SCHEDULE payload carries, none when its minute, kind or form fails (R54). -/
def scheduledEdit (p : List Byte) : Option Edit :=
  if wordAt p 0 ≤ 1439 then (editKindOf (byteAt p 2)).bind fun kind => editOf kind (p.drop 3) else none

/-- SCHEDULE (R54). -/
def actSchedule (p : List Byte) (s : State) : Taken :=
  match scheduledEdit p with
  | none => refuse .badField s
  | some edit =>
    if !s.cs.clock.set then refuse .noTime s
    else if scheduleCapacity ≤ s.cs.schedule.length then refuse .scheduleFull s
    else
      let number := freeNumber s.cs.schedule
      let e : Scheduled :=
        { number := number, edit := edit, urgent := urgentOf (p.drop 3), minute := wordAt p 0, due := false }
      answer [byteOf number] { s with cs := { s.cs with schedule := scheduleInsert e s.cs.schedule } }

/-- UNSCHEDULE (R55). -/
def actUnschedule (p : List Byte) (s : State) : Taken :=
  let number := byteAt p 0
  if number = 0 then refuse .badField s
  else if s.cs.schedule.any fun e => e.number == number then
    done { s with cs := { s.cs with schedule := s.cs.schedule.filter fun e => e.number != number } }
  else refuse .noSuch s

/-- TURN (R58, R193). -/
def actTurn (s : State) : Taken :=
  match s.service with
  | .loading => refuse .notInService s
  | .starting | .service => done (requestTurn s)

/-! ### Load Monitor -/

/-- LOAD (R85). -/
def actLoad (p : List Byte) (s : State) : Taken :=
  let pairs := loadPairs p
  if 32 < pairs.length ∨ pairs.any (fun x => decide (4095 < x.1)) = true then refuse .badField s
  else
    let taken := (pairs.filter fun x => inUse s.lm.entries x.1).length
    answer [byteOf taken, byteOf (pairs.length - taken)] (takePairs pairs s)

/-- SET THRESHOLD (R86). -/
def actSetThreshold (p : List Byte) (s : State) : Taken :=
  if 4095 < wordAt p 0 ∨ byteAt p 2 = 0 then refuse .badField s
  else
    match tableGet s.lm.entries (wordAt p 0) with
    | none => refuse .noSuch s
    | some e =>
      done { s with lm := { s.lm with entries := tablePut s.lm.entries (wordAt p 0) { e with threshold := byteAt p 2 } } }

/-- A span of `span` numbers from `first` lies within `low` to `high`, is not 0 and is not longer than `limit`. R87 states
all of it for READ LOAD; for READ COUNTS R20 states no refusal of a span of 0 or above 60, and refusing it BAD_FIELD as
well is the model's choice (log 35). -/
def spanOk (low high limit first span : Nat) : Bool :=
  decide (low ≤ first) && decide (first ≤ high) && decide (1 ≤ span) && decide (span ≤ limit)
    && decide (first + span ≤ high + 1)

/-- The records of a span changed by `f` (R20, R87). -/
def changeSpan {α : Type} (f : α → α) (first span : Nat) (t : List (Nat × α)) : List (Nat × α) :=
  tableMap (fun n v => if first ≤ n ∧ n < first + span then f v else v) t

/-- READ LOAD (R87). -/
def actReadLoad (p : List Byte) (s : State) : Taken :=
  let first := wordAt p 0
  let span := byteAt p 2
  if spanOk 0 4095 30 first span then
    let data := be16 s.lm.congestedCount
      ++ ((tableSpan s.lm.entries first span).map fun x => encodeLoad x.1 x.2).flatten
    let cleared := { s with lm := { s.lm with
      entries := changeSpan (fun e => { e with episodes := 0 }) first span s.lm.entries } }
    answer data (if bitAt p 3 then cleared else s)
  else refuse .badField s

/-! ### Reads and counts -/

/-- READ LISTING. The record is taken now, and its open-now bit is read when the reply is formed (R11, R22). -/
def actReadListing (p : List Byte) (s : State) : Taken :=
  if listingNumber (wordAt p 0) then
    match tableGet s.ds.listings (wordAt p 0) with
    | none => refuse .noSuch s
    | some l => (s, some (.listing (wordAt p 0) l))
  else refuse .badField s

/-- READ NODE (R45). -/
def actReadNode (p : List Byte) (s : State) : Taken :=
  if wordAt p 0 ≤ 2047 then
    match tableGet s.wg.nodes (wordAt p 0) with
    | none => refuse .noSuch s
    | some n => answer (encodeNode (wordAt p 0) n) s
  else refuse .badField s

/-- READ SEGMENT (R45). -/
def actReadSegment (p : List Byte) (s : State) : Taken :=
  if wordAt p 0 ≤ 4095 then
    match tableGet s.wg.segments (wordAt p 0) with
    | none => refuse .noSuch s
    | some g => answer (encodeSegment (wordAt p 0) g) s
  else refuse .badField s

/-- READ STATUS (R192). -/
def actReadStatus (s : State) : Taken := answer (encodeStatus s) s

/-- A command that names a station address; one out of range is refused BAD_FIELD (R175, R177). -/
def atStation (p : List Byte) (f : Addr → State → Taken) (s : State) : Taken :=
  match addrOfBytes (byteAt p 0) (byteAt p 1) with
  | none => refuse .badField s
  | some a => f a s

/-- READ STATION (R177). -/
def actReadStation (p : List Byte) (s : State) : Taken :=
  atStation p (fun a s =>
    let data := encodeStation s.wg.homes[a] (stationAt s a)
    answer data (if bitAt p 2 then updateStation a (fun st => { st with overruns := 0 }) s else s)) s

/-- The addresses whose change flag is set, in ascending order (R177). -/
def changedStations (s : State) : List Addr := (List.finRange 96).filter fun a => (stationAt s a).changed

/-- READ STATION CHANGES: the flags are taken now, the states when the reply is formed (R177). -/
def actReadStationChanges (s : State) : Taken :=
  (mapStations (fun _ st => { st with changed := false }) s, some (.changes (changedStations s)))

/-- READ COUNTS (R20). A span of 0 or above 60 is refused BAD_FIELD by the model's choice (log 35). -/
def actReadCounts (p : List Byte) (s : State) : Taken :=
  let first := wordAt p 0
  let span := byteAt p 2
  if spanOk 1 1023 60 first span then
    let data := ((tableSpan s.ds.listings first span).map fun x => be16 x.1 ++ be16 x.2.popularity).flatten
    let cleared := { s with ds := { s.ds with listings := changeSpan clearCount first span s.ds.listings } }
    answer data (if bitAt p 3 then cleared else s)
  else refuse .badField s

/-- CLEAR COUNTS (R20). -/
def actClearCounts (s : State) : Taken :=
  done { s with ds := { s.ds with listings := tableMap (fun _ l => clearCount l) s.ds.listings } }

/-! ### Station control (R175, R176) -/

/-- SET SUBSCRIPTION (R175). -/
def actSetSubscription (p : List Byte) (s : State) : Taken :=
  atStation p (fun a s =>
    if 4096 ≤ wordAt p 2 then refuse .badField s
    else
      let groups := groupsOf (wordAt p 2)
      done (updateStation a
        (fun st => { st with subscription := groups, pendingMask := st.pendingMask &&& groups }) s)) s

/-- A station that is not DISABLED becomes DISABLED (R175). -/
def disable (a : Addr) (s : State) : State :=
  let cleared := if inService (stationAt s a) then s
    else updateStation a (fun st => { st with misses := 0, attempts := 0, countdown := 0 }) s
  voidExchange a (depart a .disabled cleared)

/-- DISABLE STATION (R175). -/
def actDisable (p : List Byte) (s : State) : Taken :=
  atStation p (fun a s => if (stationAt s a).state = .disabled then done s else done (disable a s)) s

/-- RELEASE STATION (R175). -/
def actRelease (p : List Byte) (s : State) : Taken :=
  atStation p (fun a s =>
    if (stationAt s a).state = .disabled then done (changeState a .absent s) else refuse .noSuch s) s

/-- A station taken to ABSENT by a restart; a DISABLED one keeps its record whole (R178). -/
def absentRecord (st : Station) : Station :=
  if st.state = .disabled then st
  else
    { st with state := .absent, changed := st.changed || st.state != .absent, queue := [], pendingMask := 0,
              misses := 0, attempts := 0, countdown := 0, spacing := 0 }

/-- A station taken to ABSENT by a trunk reset, which also takes its raised-since flag (R176). -/
def trunkResetRecord (st : Station) : Station :=
  if st.state = .disabled then st else { absentRecord st with raisedSince := false }

/-- Taking the station to ABSENT is a change of its state (R167). -/
def becomesAbsent (st : Station) : Bool := st.state != .disabled && st.state != .absent

/-- The query table when the stations of a trunk that are in service leave together (R120, R176). -/
def leaveTrunk (s : State) (t : TrunkNo) : QueryTable :=
  { entries := s.qt.entries.filterMap fun e =>
      if trunkOf e.addr = t ∧ inService (stationAt s e.addr) = true then leaveEntry e else some e }

/-- RESET TRUNK of a trunk in range (R176). -/
def resetTrunk (t : TrunkNo) (s : State) : State :=
  let stations := mapStations (fun a st => if trunkOf a = t then trunkResetRecord st else st) { s with qt := leaveTrunk s t }
  let flagged := if anyStation s t becomesAbsent then raiseFlag stationChange stations else stations
  updateTrunk t (fun k => beginFrame s 0 { k with pollPtr := 15, noticePtr := 15, resetPtr := 15, probePtr := 15 }) flagged

/-- RESET TRUNK (R176). -/
def actResetTrunk (p : List Byte) (s : State) : Taken :=
  if h : byteAt p 0 < 6 then done (resetTrunk ⟨byteAt p 0, h⟩ s) else refuse .badField s

/-! ### Time, evacuation and attention -/

/-- SET TIME (R52). -/
def actSetTime (p : List Byte) (s : State) : Taken :=
  if 1439 < wordAt p 0 then refuse .badField s else done (setTime (wordAt p 0) s)

/-- EVAC START (R181). -/
def actEvacStart (s : State) : Taken := done (evacuationEntry s)

/-- EVAC CLEAR (R186). -/
def actEvacClear (s : State) : Taken :=
  if s.eu.asserted then refuse .evacLineActive s else done (evacuationClear s)

/-- A set of attention flags; a bit beyond the six is refused BAD_FIELD (R191). -/
def withFlags (p : List Byte) (f : AttnFlags → State → State) (s : State) : Taken :=
  if 64 ≤ byteAt p 0 then refuse .badField s else done (f (BitVec.ofNat 6 (byteAt p 0)) s)

/-- SET ATTENTION MASK (R191). -/
def actSetMask (p : List Byte) (s : State) : Taken :=
  withFlags p (fun m s => { s with ep := { s.ep with mask := m } }) s

/-- ACK ATTENTION (R191). -/
def actAck (p : List Byte) (s : State) : Taken := withFlags p clearFlags s

/-! ### Service (R193 to R195) -/

/-- START SERVICE (R193). -/
def actStartService (s : State) : Taken :=
  match s.service with
  | .loading => done (requestTurn { s with service := .starting })
  | .starting | .service => refuse .notLoading s

/-- The awaited replies of stations that a restart makes ABSENT are to be ignored (R165, R178). -/
def voidMoved (s : State) (k : Trunk) : Trunk :=
  { k with exchange := k.exchange.map fun x =>
      if becomesAbsent (stationAt s x.station) then { x with void := true } else x }

/-- The Epoch Controller after RESTART SERVICE, with the STARTING turn begun (R72, R75, log 20). -/
def restartedController (ec : EpochController) : EpochController :=
  { ec with turn := .draining, wanted := false, expiring := false, work := TurnWork.initial }

/-- The Load Monitor after RESTART SERVICE (R88). -/
def restartedMonitor (lm : LoadMonitor) : LoadMonitor :=
  { entries := tableMap (fun _ e => restartEntry e) lm.entries, congestedCount := 0, tripped := false }

/-- RESTART SERVICE in STARTING or SERVICE (R195, with R75, R88, R124, R146, R159, R178 and R187). -/
def restart (s : State) : State :=
  let restarted : State :=
    { s with
      service := .starting
      lm := restartedMonitor s.lm
      ec := restartedController s.ec
      qt := { entries := [] }
      re := { s.re with work := none }
      fe := { work := none }
      eu := { s.eu with unit := .off }
      kl := { stations := mapBank (fun _ st => absentRecord st) s.kl.stations
              trunks := mapBank (fun _ k => voidMoved s k) s.kl.trunks } }
  if (List.finRange 96).any fun a => becomesAbsent (stationAt s a) then raiseFlag stationChange restarted else restarted

/-- RESTART SERVICE (R193, R195). -/
def actRestart (s : State) : Taken :=
  match s.service with
  | .loading => refuse .notInService s
  | .starting | .service => done (restart s)

/-- FULL RESET: it forms no reply of its own (R194). -/
def actFullReset (s : State) : Taken := (fullReset s, none)

/-! ### The commands by kind (R198) -/

/-- A command: which payload lengths fit it, and its action. -/
structure HostCommand where
  fits : List Byte → Bool
  act : List Byte → State → Taken

/-- An edit command. -/
def editCommand (kind : EditKind) : HostCommand := { fits := editFits kind, act := actEdit kind }

/-- A command of fixed payload. -/
def fixedCommand (n : Nat) (act : List Byte → State → Taken) : HostCommand := { fits := exactly n, act := act }

/-- A command with no payload. -/
def bareCommand (act : State → Taken) : HostCommand := { fits := exactly 0, act := fun _ => act }

/-- The command of a kind byte; none when the kind is no command of the part. -/
def hostCommandOf (kind : Byte) : Option HostCommand :=
  match kind.toNat with
  | 0x10 => some (editCommand .putListing) | 0x11 => some (editCommand .setListingStatus)
  | 0x12 => some (editCommand .retireListing) | 0x13 => some (editCommand .putNode)
  | 0x14 => some (editCommand .removeNode) | 0x15 => some (editCommand .putSegment)
  | 0x16 => some (editCommand .setSegmentState) | 0x17 => some (editCommand .removeSegment)
  | 0x18 => some (editCommand .setExit) | 0x19 => some (editCommand .setHome)
  | 0x1A => some (editCommand .setConfig)
  | 0x20 => some { fits := scheduleFits, act := actSchedule } | 0x21 => some (fixedCommand 1 actUnschedule)
  | 0x28 => some (bareCommand actTurn)
  | 0x30 => some { fits := fun p => decide (p.length % 3 = 0), act := actLoad }
  | 0x31 => some (fixedCommand 3 actSetThreshold) | 0x32 => some (fixedCommand 4 actReadLoad)
  | 0x40 => some (fixedCommand 2 actReadListing) | 0x41 => some (fixedCommand 2 actReadNode)
  | 0x42 => some (fixedCommand 2 actReadSegment) | 0x43 => some (bareCommand actReadStatus)
  | 0x44 => some (fixedCommand 3 actReadStation) | 0x45 => some (bareCommand actReadStationChanges)
  | 0x46 => some (fixedCommand 4 actReadCounts) | 0x48 => some (bareCommand actClearCounts)
  | 0x50 => some (fixedCommand 4 actSetSubscription) | 0x51 => some (fixedCommand 2 actDisable)
  | 0x52 => some (fixedCommand 2 actRelease) | 0x53 => some (fixedCommand 1 actResetTrunk)
  | 0x58 => some (fixedCommand 2 actSetTime)
  | 0x60 => some (bareCommand actEvacStart) | 0x61 => some (bareCommand actEvacClear)
  | 0x68 => some (fixedCommand 1 actSetMask) | 0x69 => some (fixedCommand 1 actAck)
  | 0x70 => some (bareCommand actStartService) | 0x71 => some (bareCommand actRestart)
  | 0x7F => some (bareCommand actFullReset)
  | _ => none

/-- A frame of any kind byte: a REPLY is complete in its first byte, every other kind is a command frame (R188). -/
def takeKind (kind : Byte) (frame : List Byte) (s : State) : State :=
  if kind = 0 then readReply (frame.length + 1) s
  else
    match hostCommandOf kind with
    | some c => takeFrame c.fits c.act frame s
    | none => takeUnknown frame s

end Sys2Proof.Machine
end

