-- ==== Sys2Proof/Machine/HostSteps.lean ====
section
/-! DEFINITION. The meaning of every command frame of the edit port: the shared frame handling with the length check and
the action of the command. -/

namespace Sys2Proof.Machine

/-- UNKNOWN_COMMAND: a frame whose kind is no command of the part; a kind that is one runs that command (R188, log 13). -/
def execUnknownCommand (kind : Byte) (frame : List Byte) (s : State) : Host.Outcome State Fault Refusal :=
  live (takeKind kind frame) s

/-- PUT LISTING (R12, R13, R48, R73). -/
def execPutListing (frame : List Byte) (s : State) : Host.Outcome State Fault Refusal :=
  live (takeFrame (editFits .putListing) (actEdit .putListing) frame) s

/-- SET LISTING STATUS (R14, R48, R73). -/
def execSetListingStatus (frame : List Byte) (s : State) : Host.Outcome State Fault Refusal :=
  live (takeFrame (editFits .setListingStatus) (actEdit .setListingStatus) frame) s

/-- RETIRE LISTING (R15, R48, R73). -/
def execRetireListing (frame : List Byte) (s : State) : Host.Outcome State Fault Refusal :=
  live (takeFrame (editFits .retireListing) (actEdit .retireListing) frame) s

/-- PUT NODE (R39, R48, R73). -/
def execPutNode (frame : List Byte) (s : State) : Host.Outcome State Fault Refusal :=
  live (takeFrame (editFits .putNode) (actEdit .putNode) frame) s

/-- REMOVE NODE (R39, R48, R73). -/
def execRemoveNode (frame : List Byte) (s : State) : Host.Outcome State Fault Refusal :=
  live (takeFrame (editFits .removeNode) (actEdit .removeNode) frame) s

/-- PUT SEGMENT (R40, R48, R73). -/
def execPutSegment (frame : List Byte) (s : State) : Host.Outcome State Fault Refusal :=
  live (takeFrame (editFits .putSegment) (actEdit .putSegment) frame) s

/-- SET SEGMENT STATE (R41, R48, R73). -/
def execSetSegmentState (frame : List Byte) (s : State) : Host.Outcome State Fault Refusal :=
  live (takeFrame (editFits .setSegmentState) (actEdit .setSegmentState) frame) s

/-- REMOVE SEGMENT (R41, R48, R73). -/
def execRemoveSegment (frame : List Byte) (s : State) : Host.Outcome State Fault Refusal :=
  live (takeFrame (editFits .removeSegment) (actEdit .removeSegment) frame) s

/-- SET EXIT (R42, R48, R73). -/
def execSetExit (frame : List Byte) (s : State) : Host.Outcome State Fault Refusal :=
  live (takeFrame (editFits .setExit) (actEdit .setExit) frame) s

/-- SET HOME (R42, R48, R73). -/
def execSetHome (frame : List Byte) (s : State) : Host.Outcome State Fault Refusal :=
  live (takeFrame (editFits .setHome) (actEdit .setHome) frame) s

/-- SET CONFIG (R49, R65, R73). -/
def execSetConfig (frame : List Byte) (s : State) : Host.Outcome State Fault Refusal :=
  live (takeFrame (editFits .setConfig) (actEdit .setConfig) frame) s

/-- SCHEDULE (R54). -/
def execSchedule (frame : List Byte) (s : State) : Host.Outcome State Fault Refusal :=
  live (takeFrame scheduleFits actSchedule frame) s

/-- UNSCHEDULE (R55). -/
def execUnschedule (frame : List Byte) (s : State) : Host.Outcome State Fault Refusal :=
  live (takeFrame (exactly 1) actUnschedule frame) s

/-- TURN (R58). -/
def execTurn (frame : List Byte) (s : State) : Host.Outcome State Fault Refusal :=
  live (takeFrame (exactly 0) (fun _ => actTurn) frame) s

/-- LOAD (R85). -/
def execLoad (frame : List Byte) (s : State) : Host.Outcome State Fault Refusal :=
  live (takeFrame (fun p => decide (p.length % 3 = 0)) actLoad frame) s

/-- SET THRESHOLD (R86). -/
def execSetThreshold (frame : List Byte) (s : State) : Host.Outcome State Fault Refusal :=
  live (takeFrame (exactly 3) actSetThreshold frame) s

/-- READ LOAD (R87). -/
def execReadLoad (frame : List Byte) (s : State) : Host.Outcome State Fault Refusal :=
  live (takeFrame (exactly 4) actReadLoad frame) s

/-- READ LISTING (R22). -/
def execReadListing (frame : List Byte) (s : State) : Host.Outcome State Fault Refusal :=
  live (takeFrame (exactly 2) actReadListing frame) s

/-- READ NODE (R45). -/
def execReadNode (frame : List Byte) (s : State) : Host.Outcome State Fault Refusal :=
  live (takeFrame (exactly 2) actReadNode frame) s

/-- READ SEGMENT (R45). -/
def execReadSegment (frame : List Byte) (s : State) : Host.Outcome State Fault Refusal :=
  live (takeFrame (exactly 2) actReadSegment frame) s

/-- READ STATUS (R192). -/
def execReadStatus (frame : List Byte) (s : State) : Host.Outcome State Fault Refusal :=
  live (takeFrame (exactly 0) (fun _ => actReadStatus) frame) s

/-- READ STATION (R177). -/
def execReadStation (frame : List Byte) (s : State) : Host.Outcome State Fault Refusal :=
  live (takeFrame (exactly 3) actReadStation frame) s

/-- READ STATION CHANGES (R177). -/
def execReadStationChanges (frame : List Byte) (s : State) : Host.Outcome State Fault Refusal :=
  live (takeFrame (exactly 0) (fun _ => actReadStationChanges) frame) s

/-- READ COUNTS (R20). -/
def execReadCounts (frame : List Byte) (s : State) : Host.Outcome State Fault Refusal :=
  live (takeFrame (exactly 4) actReadCounts frame) s

/-- CLEAR COUNTS (R20). -/
def execClearCounts (frame : List Byte) (s : State) : Host.Outcome State Fault Refusal :=
  live (takeFrame (exactly 0) (fun _ => actClearCounts) frame) s

/-- SET SUBSCRIPTION (R175). -/
def execSetSubscription (frame : List Byte) (s : State) : Host.Outcome State Fault Refusal :=
  live (takeFrame (exactly 4) actSetSubscription frame) s

/-- DISABLE STATION (R175). -/
def execDisableStation (frame : List Byte) (s : State) : Host.Outcome State Fault Refusal :=
  live (takeFrame (exactly 2) actDisable frame) s

/-- RELEASE STATION (R175). -/
def execReleaseStation (frame : List Byte) (s : State) : Host.Outcome State Fault Refusal :=
  live (takeFrame (exactly 2) actRelease frame) s

/-- RESET TRUNK (R176). -/
def execResetTrunk (frame : List Byte) (s : State) : Host.Outcome State Fault Refusal :=
  live (takeFrame (exactly 1) actResetTrunk frame) s

/-- SET TIME (R52). -/
def execSetTime (frame : List Byte) (s : State) : Host.Outcome State Fault Refusal :=
  live (takeFrame (exactly 2) actSetTime frame) s

/-- EVAC START (R181). -/
def execEvacStart (frame : List Byte) (s : State) : Host.Outcome State Fault Refusal :=
  live (takeFrame (exactly 0) (fun _ => actEvacStart) frame) s

/-- EVAC CLEAR (R186). -/
def execEvacClear (frame : List Byte) (s : State) : Host.Outcome State Fault Refusal :=
  live (takeFrame (exactly 0) (fun _ => actEvacClear) frame) s

/-- SET ATTENTION MASK (R191). -/
def execSetAttentionMask (frame : List Byte) (s : State) : Host.Outcome State Fault Refusal :=
  live (takeFrame (exactly 1) actSetMask frame) s

/-- ACK ATTENTION (R191). -/
def execAckAttention (frame : List Byte) (s : State) : Host.Outcome State Fault Refusal :=
  live (takeFrame (exactly 1) actAck frame) s

/-- START SERVICE (R193). -/
def execStartService (frame : List Byte) (s : State) : Host.Outcome State Fault Refusal :=
  live (takeFrame (exactly 0) (fun _ => actStartService) frame) s

/-- RESTART SERVICE (R195). -/
def execRestartService (frame : List Byte) (s : State) : Host.Outcome State Fault Refusal :=
  live (takeFrame (exactly 0) (fun _ => actRestart) frame) s

/-- FULL RESET (R194). -/
def execFullReset (frame : List Byte) (s : State) : Host.Outcome State Fault Refusal :=
  live (takeFrame (exactly 0) (fun _ => actFullReset) frame) s

end Sys2Proof.Machine
end

