-- ==== Sys2Proof/Machine/Dispatch.lean ====
section
/-! DEFINITION. One arm for each command: its meaning. -/

namespace Sys2Proof.Machine

def exec (i : Instr) (s : State) : Host.Outcome State Fault Refusal :=
  match i with
  | .reply clocked => Sys2Proof.Machine.execReply clocked s
  | .unknownCommand kind frame => Sys2Proof.Machine.execUnknownCommand kind frame s
  | .putListing frame => Sys2Proof.Machine.execPutListing frame s
  | .setListingStatus frame => Sys2Proof.Machine.execSetListingStatus frame s
  | .retireListing frame => Sys2Proof.Machine.execRetireListing frame s
  | .putNode frame => Sys2Proof.Machine.execPutNode frame s
  | .removeNode frame => Sys2Proof.Machine.execRemoveNode frame s
  | .putSegment frame => Sys2Proof.Machine.execPutSegment frame s
  | .setSegmentState frame => Sys2Proof.Machine.execSetSegmentState frame s
  | .removeSegment frame => Sys2Proof.Machine.execRemoveSegment frame s
  | .setExit frame => Sys2Proof.Machine.execSetExit frame s
  | .setHome frame => Sys2Proof.Machine.execSetHome frame s
  | .setConfig frame => Sys2Proof.Machine.execSetConfig frame s
  | .schedule frame => Sys2Proof.Machine.execSchedule frame s
  | .unschedule frame => Sys2Proof.Machine.execUnschedule frame s
  | .turn frame => Sys2Proof.Machine.execTurn frame s
  | .load frame => Sys2Proof.Machine.execLoad frame s
  | .setThreshold frame => Sys2Proof.Machine.execSetThreshold frame s
  | .readLoad frame => Sys2Proof.Machine.execReadLoad frame s
  | .readListing frame => Sys2Proof.Machine.execReadListing frame s
  | .readNode frame => Sys2Proof.Machine.execReadNode frame s
  | .readSegment frame => Sys2Proof.Machine.execReadSegment frame s
  | .readStatus frame => Sys2Proof.Machine.execReadStatus frame s
  | .readStation frame => Sys2Proof.Machine.execReadStation frame s
  | .readStationChanges frame => Sys2Proof.Machine.execReadStationChanges frame s
  | .readCounts frame => Sys2Proof.Machine.execReadCounts frame s
  | .clearCounts frame => Sys2Proof.Machine.execClearCounts frame s
  | .setSubscription frame => Sys2Proof.Machine.execSetSubscription frame s
  | .disableStation frame => Sys2Proof.Machine.execDisableStation frame s
  | .releaseStation frame => Sys2Proof.Machine.execReleaseStation frame s
  | .resetTrunk frame => Sys2Proof.Machine.execResetTrunk frame s
  | .setTime frame => Sys2Proof.Machine.execSetTime frame s
  | .evacStart frame => Sys2Proof.Machine.execEvacStart frame s
  | .evacClear frame => Sys2Proof.Machine.execEvacClear frame s
  | .setAttentionMask frame => Sys2Proof.Machine.execSetAttentionMask frame s
  | .ackAttention frame => Sys2Proof.Machine.execAckAttention frame s
  | .startService frame => Sys2Proof.Machine.execStartService frame s
  | .restartService frame => Sys2Proof.Machine.execRestartService frame s
  | .fullReset frame => Sys2Proof.Machine.execFullReset frame s
  | .resetAssert => Sys2Proof.Machine.execResetAssert s
  | .resetRelease => Sys2Proof.Machine.execResetRelease s
  | .emergencyAsserted => Sys2Proof.Machine.execEmergencyAsserted s
  | .emergencyReleased => Sys2Proof.Machine.execEmergencyReleased s
  | .secondEvent => Sys2Proof.Machine.execSecondEvent s
  | .minuteEvent => Sys2Proof.Machine.execMinuteEvent s
  | .autoTurnExpiry => Sys2Proof.Machine.execAutoTurnExpiry s
  | .staleExpiry segment => Sys2Proof.Machine.execStaleExpiry segment s
  | .holdExpiry station tag => Sys2Proof.Machine.execHoldExpiry station tag s
  | .drainComplete => Sys2Proof.Machine.execDrainComplete s
  | .applyStagedEdit => Sys2Proof.Machine.execApplyStagedEdit s
  | .weightSampling => Sys2Proof.Machine.execWeightSampling s
  | .relocationRepair => Sys2Proof.Machine.execRelocationRepair s
  | .reachabilityFloods => Sys2Proof.Machine.execReachabilityFloods s
  | .turnComplete => Sys2Proof.Machine.execTurnComplete s
  | .frameStart trunk => Sys2Proof.Machine.execFrameStart trunk s
  | .resetCountdownExpiry station => Sys2Proof.Machine.execResetCountdownExpiry station s
  | .notice trunk => Sys2Proof.Machine.execNotice trunk s
  | .poll trunk => Sys2Proof.Machine.execPoll trunk s
  | .stationReset trunk => Sys2Proof.Machine.execStationReset trunk s
  | .probe trunk => Sys2Proof.Machine.execProbe trunk s
  | .probeReply trunk delay content => Sys2Proof.Machine.execProbeReply trunk delay content s
  | .emptyReply trunk delay => Sys2Proof.Machine.execEmptyReply trunk delay s
  | .readyReply trunk delay => Sys2Proof.Machine.execReadyReply trunk delay s
  | .badReply trunk delay message => Sys2Proof.Machine.execBadReply trunk delay message s
  | .replyWindowClose trunk => Sys2Proof.Machine.execReplyWindowClose trunk s
  | .findRequest trunk delay tag params => Sys2Proof.Machine.execFindRequest trunk delay tag params s
  | .browseRequest trunk delay tag params => Sys2Proof.Machine.execBrowseRequest trunk delay tag params s
  | .routeRequest trunk delay tag params => Sys2Proof.Machine.execRouteRequest trunk delay tag params s
  | .pageRequest trunk delay tag params => Sys2Proof.Machine.execPageRequest trunk delay tag params s
  | .cancelRequest trunk delay tag params => Sys2Proof.Machine.execCancelRequest trunk delay tag params s
  | .releaseRequest trunk delay tag params => Sys2Proof.Machine.execReleaseRequest trunk delay tag params s
  | .seenRequest trunk delay tag params => Sys2Proof.Machine.execSeenRequest trunk delay tag params s
  | .sleepRequest trunk delay tag params => Sys2Proof.Machine.execSleepRequest trunk delay tag params s
  | .wakeRequest trunk delay tag params => Sys2Proof.Machine.execWakeRequest trunk delay tag params s
  | .routeSearchSettle => Sys2Proof.Machine.execRouteSearchSettle s
  | .exitTreeWalkStep => Sys2Proof.Machine.execExitTreeWalkStep s
  | .routeFormingEnd => Sys2Proof.Machine.execRouteFormingEnd s
  | .routeEngineHalt => Sys2Proof.Machine.execRouteEngineHalt s
  | .findScanStep => Sys2Proof.Machine.execFindScanStep s
  | .findFormingEnd => Sys2Proof.Machine.execFindFormingEnd s
  | .findEngineHalt => Sys2Proof.Machine.execFindEngineHalt s
  | .exitTreeBuildStart => Sys2Proof.Machine.execExitTreeBuildStart s
  | .exitTreeSettle => Sys2Proof.Machine.execExitTreeSettle s
  | .exitTreeBuildComplete => Sys2Proof.Machine.execExitTreeBuildComplete s
  | .emergencySample asserted => Sys2Proof.Machine.execEmergencySample asserted s
  | .replyFormed => Sys2Proof.Machine.execReplyFormed s

end Sys2Proof.Machine
end

