-- ==== Sys2Proof/Safety.lean ====
section
/-! DEFINITION. The conditions that the manual states for every state of the part, as predicates that every step keeps,
and the words in which the statements about commands are made. -/

namespace Sys2Proof.Safety
open Sys2Proof.Machine

/-! ### The evacuation latch and the engines -/

/-- Whenever the latch is clear, the unit is OFF (R180). -/
abbrev LatchInv (s : State) : Prop := s.eu.latch = false → s.eu.unit = .off

/-- An entry that stands with its engine. -/
def busy (e : QueryEntry) : Bool :=
  match e.state with
  | .working | .halting _ => true
  | .queued | .ready _ => false

/-- A WORKING or HALTING entry is the one that its engine's work record names, and a work record names such an entry of
its engine's kind; so one entry at a time is with each engine. None is while a turn applies or validates, and none with
the route engine while the tree is built (R60, R110, R125, R147, R182). An expiry of the auto-turn countdown waits only
in STEADY (R72). -/
structure EngineInv (s : State) : Prop where
  latch : LatchInv s
  distinct : s.qt.entries.Pairwise fun e f => ¬(e.addr = f.addr ∧ e.tag = f.tag)
  route : ∀ e ∈ s.qt.entries, isRoute e = true → busy e = true →
    ∃ w, s.re.work = some w ∧ w.addr = e.addr ∧ w.tag = e.tag
  find : ∀ e ∈ s.qt.entries, isRoute e = false → busy e = true →
    ∃ w, s.fe.work = some w ∧ w.addr = e.addr ∧ w.tag = e.tag
  routeWork : ∀ w, s.re.work = some w →
    ∃ e ∈ s.qt.entries, e.addr = w.addr ∧ e.tag = w.tag ∧ isRoute e = true ∧ busy e = true
  findWork : ∀ w, s.fe.work = some w →
    ∃ e ∈ s.qt.entries, e.addr = w.addr ∧ e.tag = w.tag ∧ isRoute e = false ∧ busy e = true
  expiry : s.ec.expiring = true → s.ec.turn = .steady
  turn : s.ec.turn = .applying ∨ s.ec.turn = .validating → s.re.work = none ∧ s.fe.work = none
  build : s.eu.unit = .building → s.re.work = none ∧ s.ec.turn = .steady

/-! ### The query table and the answer queues -/

/-- At most 32 live entries, at most 2 of one station, and no tag twice at one station (R103, R106). -/
structure TableInv (s : State) : Prop where
  size : s.qt.entries.length ≤ 32
  each : ∀ a : Addr, liveCount s.qt a ≤ 2
  distinct : s.qt.entries.Pairwise fun e f => ¬(e.addr = f.addr ∧ e.tag = f.tag)

/-- An answer queue holds at most four slots, places rise in the order of the queue, and at most one slot is in flight, a
filled one (R164, R170). -/
structure SlotsInv (st : Station) : Prop where
  size : st.queue.length ≤ 4
  rising : st.queue.Pairwise fun x y => x.place < y.place
  below : ∀ x ∈ st.queue, x.place < st.nextPlace
  single : (st.queue.filter fun x => x.inFlight).length ≤ 1
  filled : ∀ x ∈ st.queue, x.inFlight = true → x.content.isSome = true

/-- Every answer queue is within its bounds, and every live entry names a place that its station has given out. -/
structure QueuesInv (s : State) : Prop where
  slots : ∀ a : Addr, SlotsInv (stationAt s a)
  entries : ∀ e ∈ s.qt.entries, e.slot < (stationAt s e.addr).nextPlace

/-- A pending mask is contained in the subscription mask, and is empty outside ENABLED and DORMANT (R172). -/
abbrev MaskOk (st : Station) : Prop :=
  st.pendingMask &&& st.subscription = st.pendingMask ∧ (inService st = false → st.pendingMask = 0)

/-- Every pending mask is as R172 states. -/
abbrev MasksInv (s : State) : Prop := ∀ a : Addr, MaskOk (stationAt s a)

/-! ### The Load Monitor and the weights -/

/-- How many load entries are CONGESTED. -/
def congestedEntries (entries : List (Nat × LoadEntry)) : Nat := (entries.filter fun p => p.2.congested).length

/-- One load entry for each in-use segment, C counts the CONGESTED ones, and every congestion weight and every sampled
weight lies within 16 to 64 (R66, R76, R79, R82). -/
structure LoadInv (s : State) : Prop where
  sorted : TableSorted s.lm.entries
  keys : s.lm.entries.map (fun p => p.1) = s.wg.segments.map (fun p => p.1)
  count : s.lm.congestedCount = congestedEntries s.lm.entries
  live : ∀ p ∈ s.lm.entries, 16 ≤ p.2.weight ∧ p.2.weight ≤ 64
  sampled : ∀ p ∈ s.wg.segments, 16 ≤ p.2.weight ∧ p.2.weight ≤ 64

/-! ### The name index -/

/-- The name index holds every in-use slot exactly once and no free slot, in directory order (R16). -/
structure IndexInv (s : State) : Prop where
  sorted : TableSorted s.ds.listings
  ordered : s.ds.nameIndex.Pairwise fun m n =>
    directoryBefore (nameOf s.ds m, m) (nameOf s.ds n, n) = true
  holds : ∀ n, n ∈ s.ds.nameIndex ↔ inUse s.ds.listings n = true

/-! ### The Change Stage -/

/-- The staged queue, the scheduled list, their entries and the clock are within their ranges, and the list is ordered by
minute with no schedule number twice (R47, R50, R53). -/
structure StageInv (s : State) : Prop where
  queue : s.cs.queue.length ≤ 64
  seq : s.cs.nextSeq < 65536
  staged : ∀ x ∈ s.cs.queue, x.seq < 65536
  schedule : s.cs.schedule.length ≤ 32
  ordered : s.cs.schedule.Pairwise fun e f => e.minute ≤ f.minute
  numbers : s.cs.schedule.Pairwise fun e f => e.number ≠ f.number
  entries : ∀ e ∈ s.cs.schedule, 1 ≤ e.number ∧ e.number ≤ 255 ∧ e.minute ≤ 1439
  clock : s.cs.clock.minute ≤ 1439 ∧ s.cs.clock.seconds ≤ 59

/-! ### The consistency of the records -/

/-- An edit meets its form conditions (R3, R38, R49), so far as the consistency of the records rests on them. -/
def editFormed : Edit → Bool
  | .putListing n f => listingFormOk n f
  | .putNode n f => nodeFormOk n f
  | .putSegment n f => segmentFormOk n f
  | .setConfig c => configOk c
  | .setListingStatus _ _ _ | .retireListing _ | .removeNode _ | .setSegmentState _ _ | .removeSegment _ | .setExit _ _
  | .setHome _ _ => true

/-- The conditions of R44: an adjacency list holds exactly the in-use segments that name its node, ascending and at most
six; the ends of a segment are two different in-use nodes, on one floor just when its kind is horizontal; entrances are
ENTRANCE nodes and homes KIOSK nodes. With them stand the ranges of R24 and R196 and the form of every edit that waits. -/
structure GraphInv (s : State) : Prop where
  staged : ∀ x ∈ s.cs.queue, editFormed x.edit = true
  scheduled : ∀ e ∈ s.cs.schedule, editFormed e.edit = true
  config : configOk s.config = true
  nodes : TableSorted s.wg.nodes
  segments : TableSorted s.wg.segments
  numbers : ∀ p ∈ s.wg.nodes, p.1 < 2048
  adjacency : ∀ p ∈ s.wg.nodes,
    p.2.adjacency = (s.wg.segments.filter fun g => touches g.2.toSegmentForm p.1).map fun g => g.1
  degree : ∀ p ∈ s.wg.nodes, p.2.adjacency.length ≤ 6
  ends : ∀ p ∈ s.wg.segments,
    p.2.endA ≠ p.2.endB ∧ inUse s.wg.nodes p.2.endA = true ∧ inUse s.wg.nodes p.2.endB = true
  floors : ∀ p ∈ s.wg.segments, horizontal p.2.kind = true ↔ floorOf s.wg p.2.endA = floorOf s.wg p.2.endB
  entrances : ∀ p ∈ s.ds.listings, ∀ n ∈ p.2.entrances, kindOf s.wg n = some .entrance
  homes : ∀ (a : Addr) (n : Nat), s.wg.homes[a] = some n → kindOf s.wg n = some .kiosk

/-! ### The frontiers -/

/-- A frontier holds at most 512 entries in frontier order, no node twice, only nodes that are not settled, each at the
best cost of its node (R131). -/
structure SearchInv (x : Search) : Prop where
  records : TableSorted x.records
  size : x.frontier.length ≤ 512
  ordered : x.frontier.Pairwise fun e f => frontierBefore e f = true
  once : x.frontier.Pairwise fun e f => e.2 ≠ f.2
  costs : ∀ e ∈ x.frontier, (recordOf x e.2).cost = e.1 ∧ (recordOf x e.2).settled = false

/-- The frontiers of the Route Engine and of the exit tree (R131, R183). -/
structure FrontiersInv (s : State) : Prop where
  search : SearchInv s.re.search
  tree : SearchInv s.eu.tree

/-! ### Reachability -/

/-- A node that some walk of permitted moves reaches from the home of a station, in a profile (R37, R68). -/
inductive Reached (wg : Graph) (profile : Profile) : Nat → Prop
  | home (a : Addr) (n : Nat) : wg.homes[a] = some n → Reached wg profile n
  | move (p q n : Nat) (g : Segment) :
      Reached wg profile p → tableGet wg.segments n = some g → permitted profile g p q = true → Reached wg profile q

/-! ### Words of the statements -/

/-- The Edit Port takes a command frame: the part is not held reset and no command is being taken (R189, R194). -/
abbrev taking (s : State) : Prop := s.resetHeld = false ∧ s.ep.reply.status ≠ .pending

/-- The part with a command of a frame of `bytes` bytes taken, its reply to be formed from `f`: 0x00 was driven on MISO,
the held status is PENDING with no data, and nothing else has changed (R188, R189). -/
def takenForming (bytes : Nat) (f : Forming) (s : State) : State :=
  { s with ep := { s.ep with miso := List.replicate bytes 0
                             reply := { s.ep.reply with status := .pending, data := [] }
                             forming := some f } }

/-- The same where the reply `r` is known whole. -/
def taken (bytes : Nat) (r : FormedReply) (s : State) : State := takenForming bytes (.fixed r) s

/-- A reply REFUSED with a reason code of R198. -/
def refusedWith (code : Byte) : FormedReply := { status := .refused, data := [code] }

/-- The directory, the graph, the Load Monitor, the configuration, the Change Stage and the service state are the
same. -/
abbrev sameRecords (s t : State) : Prop :=
  t.service = s.service ∧ t.resetHeld = s.resetHeld ∧ t.config = s.config ∧ t.ds = s.ds ∧ t.wg = s.wg ∧ t.lm = s.lm
    ∧ t.cs = s.cs ∧ t.pending = s.pending

/-- Nothing has changed but the query table, the engines and the station records. -/
abbrev sameButQueries (s t : State) : Prop :=
  sameRecords s t ∧ t.ec = s.ec ∧ t.eu = s.eu ∧ t.ep = s.ep ∧ t.kl.trunks = s.kl.trunks

/-- Every station record but that of `a` is the same. -/
abbrev sameStationsBut (a : Addr) (s t : State) : Prop := ∀ b, b ≠ a → stationAt t b = stationAt s b

/-- Every trunk but `t` is the same. -/
abbrev sameTrunksBut (k : TrunkNo) (s t : State) : Prop := ∀ u, u ≠ k → trunkAt t u = trunkAt s u

/-- Nothing has changed but the query table, the engines, the record of station `a`, trunk `k`, whose exchange has ended,
and the attention flags, which have these added. -/
abbrev sameButRequest (k : TrunkNo) (a : Addr) (flags : AttnFlags) (s t : State) : Prop :=
  sameStationsBut a s t ∧ sameRecords s t ∧ t.ec = s.ec ∧ t.eu = s.eu
    ∧ t.ep = { s.ep with flags := s.ep.flags ||| flags } ∧ sameTrunksBut k s t ∧ (trunkAt t k).exchange = none

/-- STATION_CHANGE, when the station is not in this state already (R167). -/
def changeFlag (new : StationState) (st : Station) : AttnFlags := if st.state = new then 0 else 2

/-- A reply to a POLL is taken on a trunk: its start marker comes `d` bit times after the POLL, within the window, and
the exchange with the station still stands (R165). -/
abbrev answering (k : TrunkNo) (d : Nat) (x : Exchange) (s : State) : Prop :=
  s.resetHeld = false ∧ d ≤ 64 ∧ (trunkAt s k).exchange = some x ∧ trunkOf x.station = k ∧ x.void = false
    ∧ x.probe = false

/-- A station in service of which a good request other than SLEEP is taken: the message in flight acknowledged, and a
DORMANT station made ENABLED (R165, R169). -/
def awake (st : Station) : Station :=
  if st.state = .enabled then acknowledge st else { acknowledge st with state := .enabled, changed := true }

/-- The refusal that admission gives a request, by the checks of R106 in their order; `query` is none when its parameters
fail R107. -/
def firstRefusal (s : State) (a : Addr) (tag : Tag) (query : Option Query) (reason : LinkReason) : Prop :=
  let held := ∃ e ∈ s.qt.entries, e.addr = a ∧ e.tag = tag
  let busy := 2 ≤ liveCount s.qt a
  let full := 32 ≤ s.qt.entries.length
  let noTarget := ∃ target profile origin, query = some (.route target profile origin) ∧
    ((∃ n, target = .listing n ∧ tableGet s.ds.listings n = none)
      ∨ (∃ n, target = .node n ∧ tableGet s.wg.nodes n = none)
      ∨ ∃ c, target = .amenity c ∧ ∀ x ∈ s.wg.nodes, x.2.kind ≠ .amenity c)
  let noOrigin := ∃ target profile, query = some (.route target profile none) ∧ s.wg.homes[a] = none
  match reason with
  | .notInService => s.service ≠ .service
  | .badRequest => s.service = .service ∧ query = none
  | .tagInUse => s.service = .service ∧ query ≠ none ∧ held
  | .busy => s.service = .service ∧ query ≠ none ∧ ¬held ∧ busy
  | .full => s.service = .service ∧ query ≠ none ∧ ¬held ∧ ¬busy ∧ full
  | .noTarget => s.service = .service ∧ query ≠ none ∧ ¬held ∧ ¬busy ∧ ¬full ∧ noTarget
  | .noOrigin => s.service = .service ∧ query ≠ none ∧ ¬held ∧ ¬busy ∧ ¬full ∧ ¬noTarget ∧ noOrigin
  | .noSuchTag | .notReady | .badPage | .evacuating => False

/-- A reason found by tests made in order: the reason of the first condition that holds, and none when none does. -/
def testedInOrder : List (Prop × Reason) → Option Reason → Prop
  | [], r => r = none
  | (condition, reason) :: rest, r => (condition → r = some reason) ∧ (¬condition → testedInOrder rest r)

/-- The edit command of each kind. -/
def editInstr : EditKind → List Byte → Instr
  | .putListing, f => .putListing f
  | .setListingStatus, f => .setListingStatus f
  | .retireListing, f => .retireListing f
  | .putNode, f => .putNode f
  | .removeNode, f => .removeNode f
  | .putSegment, f => .putSegment f
  | .setSegmentState, f => .setSegmentState f
  | .removeSegment, f => .removeSegment f
  | .setExit, f => .setExit f
  | .setHome, f => .setHome f
  | .setConfig, f => .setConfig f

/-- The bytes of a frame after its kind byte, for the commands of the edit port that are commands of the part. -/
def frameBytes : Instr → Option (List Byte)
  | .putListing f | .setListingStatus f | .retireListing f | .putNode f | .removeNode f | .putSegment f
  | .setSegmentState f | .removeSegment f | .setExit f | .setHome f | .setConfig f | .schedule f | .unschedule f
  | .turn f | .load f | .setThreshold f | .readLoad f | .readListing f | .readNode f | .readSegment f | .readStatus f
  | .readStation f | .readStationChanges f | .readCounts f | .clearCounts f | .setSubscription f | .disableStation f
  | .releaseStation f | .resetTrunk f | .setTime f | .evacStart f | .evacClear f | .setAttentionMask f
  | .ackAttention f | .startService f | .restartService f | .fullReset f => some f
  | _ => none

/-- The payload length of a command of fixed payload (R198). -/
def fixedLength : Instr → Option Nat
  | .setListingStatus _ => some 6
  | .retireListing _ | .removeNode _ | .removeSegment _ => some 3
  | .putNode _ => some 10
  | .putSegment _ => some 12
  | .setSegmentState _ | .setExit _ => some 4
  | .setHome _ => some 5
  | .setConfig _ => some 43
  | .setThreshold _ | .readStation _ => some 3
  | .readLoad _ | .readCounts _ | .setSubscription _ => some 4
  | .readListing _ | .readNode _ | .readSegment _ | .disableStation _ | .releaseStation _ | .setTime _ => some 2
  | .unschedule _ | .resetTrunk _ | .setAttentionMask _ | .ackAttention _ => some 1
  | .turn _ | .clearCounts _ | .readStatus _ | .readStationChanges _ | .evacStart _ | .evacClear _ | .startService _
  | .restartService _ | .fullReset _ => some 0
  | _ => none

/-! ### The frames of the edit port -/

/-- The commands of the edit port, each made from the bytes of its frame after the kind byte. -/
def frameCommands : List (List Byte → Instr) :=
  [.putListing, .setListingStatus, .retireListing, .putNode, .removeNode, .putSegment, .setSegmentState, .removeSegment,
   .setExit, .setHome, .setConfig, .schedule, .unschedule, .turn, .load, .setThreshold, .readLoad, .readListing,
   .readNode, .readSegment, .readStatus, .readStation, .readStationChanges, .readCounts, .clearCounts,
   .setSubscription, .disableStation, .releaseStation, .resetTrunk, .setTime, .evacStart, .evacClear,
   .setAttentionMask, .ackAttention, .startService, .restartService, .fullReset]

/-! ### Layouts of reply data (R198): what stands at which byte -/

/-- The code of a listing status. -/
def statusByte : ListingStatus → Nat
  | .opened => 0 | .closed => 1 | .closedToday => 2 | .comingSoon => 3 | .relocated => 4

/-- The code of a node kind. -/
def kindByte : NodeKind → Nat
  | .junction => 0 | .entrance => 1 | .kiosk => 2 | .exit _ => 3 | .landing => 4 | .amenity _ => 5

/-- The byte after the kind of a node: its exit state or amenity class, 0xFF for the other kinds. -/
def extraByte : NodeKind → Nat
  | .exit .usable => 0 | .exit .blocked => 1 | .amenity c => c
  | .junction | .entrance | .kiosk | .landing => 255

/-- The code of a segment kind. -/
def segmentKindByte : SegmentKind → Nat
  | .walk => 0 | .ramp => 1 | .stair => 2 | .escalator => 3 | .lift => 4

/-- The code of a direction. -/
def directionByte : Direction → Nat
  | .both => 0 | .aToB => 1 | .bToA => 2

/-- The code of a segment state. -/
def segmentStateByte : SegmentState → Nat
  | .opened => 0 | .closed => 1

/-- The data of READ LISTING. -/
structure ListingBytes (n : Nat) (l : Listing) (isOpen : Bool) (d : List Byte) : Prop where
  size : d.length = 16 + l.categories.length + 2 * l.entrances.length + l.name.length
  number : wordAt d 0 = n % 65536
  floor : byteAt d 2 = l.floor % 256
  status : byteAt d 3 = statusByte l.status
  forward : wordAt d 4 = (l.forward.getD 65535) % 65536
  opens : wordAt d 6 = (match l.hours with | some h => h.opens | none => 65535) % 65536
  closes : wordAt d 8 = (match l.hours with | some h => h.closes | none => 65535) % 65536
  popularity : wordAt d 10 = l.popularity % 65536
  flags : byteAt d 12 =
    (if isOpen then 1 else 0) + (if l.reachStandard then 2 else 0) + (if l.reachStepFree then 4 else 0)
  categoryCount : byteAt d 13 = l.categories.length % 256
  categories : bytesAt d 14 l.categories.length = l.categories.map fun c => c % 256
  entranceCount : byteAt d (14 + l.categories.length) = l.entrances.length % 256
  entrances : wordsAt d (15 + l.categories.length) l.entrances.length = l.entrances.map fun n => n % 65536
  nameLength : byteAt d (15 + l.categories.length + 2 * l.entrances.length) = l.name.length % 256
  name : bytesAt d (16 + l.categories.length + 2 * l.entrances.length) l.name.length = l.name.map fun x => x % 256

/-- The data of READ NODE. -/
structure NodeBytes (n : Nat) (x : Node) (d : List Byte) : Prop where
  size : d.length = 10 + 2 * x.adjacency.length
  number : wordAt d 0 = n % 65536
  floor : byteAt d 2 = x.floor % 256
  kind : byteAt d 3 = kindByte x.kind
  extra : byteAt d 4 = extraByte x.kind % 256
  east : wordAt d 5 = x.x % 65536
  north : wordAt d 7 = x.y % 65536
  count : byteAt d 9 = x.adjacency.length % 256
  adjacency : wordsAt d 10 x.adjacency.length = x.adjacency.map fun m => m % 65536

/-- The data of READ SEGMENT. -/
structure SegmentBytes (n : Nat) (g : Segment) (d : List Byte) : Prop where
  size : d.length = 12
  number : wordAt d 0 = n % 65536
  endA : wordAt d 2 = g.endA % 65536
  endB : wordAt d 4 = g.endB % 65536
  length : wordAt d 6 = g.length % 65536
  kind : byteAt d 8 = segmentKindByte g.kind
  direction : byteAt d 9 = directionByte g.direction
  state : byteAt d 10 = segmentStateByte g.state
  weight : byteAt d 11 = g.weight % 256

/-- A record of READ LOAD. -/
structure LoadBytes (n : Nat) (e : LoadEntry) (d : List Byte) : Prop where
  size : d.length = 8
  number : wordAt d 0 = n % 65536
  reading : byteAt d 2 = e.reading % 256
  threshold : byteAt d 3 = e.threshold % 256
  age : byteAt d 4 = e.age % 256
  weight : byteAt d 5 = e.weight % 256
  episodes : byteAt d 6 = e.episodes % 256
  state : byteAt d 7 = (match e.freshness with | .none => 0 | .fresh => 1 | .stale => 2) + if e.congested then 4 else 0

/-- The code of a station state. -/
def stationCode : StationState → Nat
  | .absent => 0 | .attached => 1 | .resetting => 2 | .enabled => 3 | .dormant => 4 | .faulted => 5 | .disabled => 6

/-- The data of READ STATION. -/
structure StationBytes (home : Option Nat) (st : Station) (d : List Byte) : Prop where
  size : d.length = 13
  state : byteAt d 0 = stationCode st.state
  homeNode : wordAt d 1 = (home.getD 65535) % 65536
  subscription : wordAt d 3 = st.subscription.toNat
  pendingMask : wordAt d 5 = st.pendingMask.toNat
  misses : byteAt d 7 = st.misses % 256
  attempts : byteAt d 8 = st.attempts % 256
  filled : byteAt d 9 = (st.queue.filter fun x => x.content.isSome).length % 256
  reserved : byteAt d 10 = (st.queue.filter fun x => x.content.isNone).length % 256
  overruns : byteAt d 11 = st.overruns % 256
  changed : byteAt d 12 = if st.changed then 1 else 0

/-- The fields of a configuration but popularity frozen, laid out from byte `i` as in the SET CONFIG payload after its
urgent byte. -/
structure ConfigFields (c : Configuration) (i : Nat) (d : List Byte) : Prop where
  frameLength : byteAt d i = c.frameLength % 256
  noticeShare : byteAt d (i + 1) = match c.noticeShare with | .none => 0 | .eighth => 1 | .quarter => 2 | .half => 3
  bitRate : byteAt d (i + 2) = match c.bitRate with | .k250 => 0 | .k500 => 1 | .m1 => 2
  faultLimit : byteAt d (i + 3) = c.faultLimit % 256
  paceStandard : byteAt d (i + 4) = c.paceStandard % 256
  paceStepFree : byteAt d (i + 5) = c.paceStepFree % 256
  paceEvacuation : byteAt d (i + 6) = c.paceEvacuation % 256
  penaltyEscalator : wordAt d (i + 7) = c.penaltyEscalator % 65536
  penaltyStair : wordAt d (i + 9) = c.penaltyStair % 65536
  penaltyLift : wordAt d (i + 11) = c.penaltyLift % 65536
  escalatorRide : byteAt d (i + 13) = c.escalatorRide % 256
  stairClimb : byteAt d (i + 14) = c.stairClimb % 256
  liftWait : byteAt d (i + 15) = c.liftWait % 256
  liftTravel : byteAt d (i + 16) = c.liftTravel % 256
  hysteresis : byteAt d (i + 17) = c.hysteresis % 256
  staleLimit : byteAt d (i + 18) = c.staleLimit % 256
  alarmLevel : wordAt d (i + 19) = c.alarmLevel % 65536
  autoTurn : byteAt d (i + 21) = c.autoTurn % 256
  effortLimit : wordAt d (i + 22) = c.effortLimit % 65536
  holdTime : byteAt d (i + 24) = c.holdTime % 256
  labels : ∀ f l, c.labels[f]? = some l → byteAt d (i + 26 + 2 * f) = l.1 % 256 ∧ byteAt d (i + 27 + 2 * f) = l.2 % 256

/-- The whole configuration laid out from byte `i`. -/
structure ConfigBytes (c : Configuration) (i : Nat) (d : List Byte) : Prop extends ConfigFields c i d where
  frozen : byteAt d (i + 25) = if c.frozen then 1 else 0

/-- The data of READ STATUS. The minute of an UNSET clock is 0xFFFF, the model's reading (log 27). -/
structure StatusBytes (s : State) (d : List Byte) : Prop where
  size : d.length = 69
  service : byteAt d 0 = match s.service with | .loading => 0 | .starting => 1 | .service => 2
  turn : byteAt d 1 = (match s.ec.turn with | .steady => 0 | .draining => 1 | .applying => 2 | .validating => 3)
    + (if s.ec.wanted then 4 else 0) + if s.ec.rollover then 8 else 0
  epoch : wordAt d 2 = s.ec.report.epoch % 65536
  applied : byteAt d 4 = s.ec.report.applied % 256
  rejected : byteAt d 5 = s.ec.report.rejected % 256
  firstReason : byteAt d 6 = match s.ec.report.first with | some (_, reason) => reasonCode reason | none => 0
  firstNumber : wordAt d 7 = (match s.ec.report.first with | some (seq, _) => seq | none => 0) % 65536
  groups : wordAt d 9 = s.ec.report.groups.toNat
  unreachableStandard : wordAt d 11 = s.ec.report.unreachableStandard % 65536
  unreachableStepFree : wordAt d 13 = s.ec.report.unreachableStepFree % 65536
  staged : byteAt d 15 = s.cs.queue.length % 256
  scheduled : byteAt d 16 = s.cs.schedule.length % 256
  flags : byteAt d 17 = s.ep.flags.toNat
  mask : byteAt d 18 = s.ep.mask.toNat
  congestedCount : wordAt d 19 = s.lm.congestedCount % 65536
  alarm : byteAt d 21 = if s.lm.tripped then 1 else 0
  clock : byteAt d 22 = if s.cs.clock.set then 1 else 0
  minute : wordAt d 23 = (if s.cs.clock.set then s.cs.clock.minute else 65535) % 65536
  seconds : byteAt d 25 = s.cs.clock.seconds % 256
  evacuation : byteAt d 26 = (if s.eu.latch then 1 else 0)
    + 2 * (match s.eu.unit with | .off => 0 | .building => 1 | .active => 2)
    + (if s.eu.asserted then 8 else 0) + if s.eu.tree.approximate then 16 else 0
  config : ConfigBytes s.config 27 d

/-! ### What a payload or a request carries (R198), and the form conditions -/

/-- A valid name key (R4). -/
structure NameFormed (name : List Nat) : Prop where
  size : 1 ≤ name.length ∧ name.length ≤ 24
  symbols : ∀ x ∈ name, x ≤ 39
  ends : name.head? ≠ some 0 ∧ name.getLast? ≠ some 0
  spaces : ∀ i, name[i]? = some 0 → name[i + 1]? ≠ some 0

/-- Status and forward of listing `n` agree: RELOCATED carries a forward to another listing, any other status none
(R3). -/
def ForwardFormed (n : Nat) (status : ListingStatus) (forward : Option Nat) : Prop :=
  if status = .relocated then ∃ f, forward = some f ∧ 1 ≤ f ∧ f ≤ 1023 ∧ f ≠ n else forward = none

/-- The form conditions of PUT LISTING (R3). -/
structure ListingFormed (n : Nat) (f : ListingForm) : Prop where
  name : NameFormed f.name
  categories : 1 ≤ f.categories.length ∧ f.categories.length ≤ 4 ∧ (∀ c ∈ f.categories, c ≤ 63) ∧ f.categories.Nodup
  floor : f.floor ≤ 7
  entrances : 1 ≤ f.entrances.length ∧ f.entrances.length ≤ 4 ∧ (∀ m ∈ f.entrances, m ≤ 2047) ∧ f.entrances.Nodup
  forward : ForwardFormed n f.status f.forward
  hours : ∀ h, f.hours = some h → h.opens ≤ 1439 ∧ h.closes ≤ 1439 ∧ h.opens ≠ h.closes

/-- The fields of a PUT LISTING payload; 0xFFFF stands for no forward, and twice for no hours. -/
structure ListingCarried (f : ListingForm) (p : List Byte) : Prop where
  floor : byteAt p 3 = f.floor
  status : byteAt p 4 = statusByte f.status
  forward : wordAt p 5 = f.forward.getD 65535
  opens : wordAt p 7 = match f.hours with | some h => h.opens | none => 65535
  closes : wordAt p 9 = match f.hours with | some h => h.closes | none => 65535
  categoryCount : byteAt p 11 = f.categories.length
  categories : bytesAt p 12 f.categories.length = f.categories
  entranceCount : byteAt p (12 + f.categories.length) = f.entrances.length
  entrances : wordsAt p (13 + f.categories.length) f.entrances.length = f.entrances
  nameLength : byteAt p (13 + f.categories.length + 2 * f.entrances.length) = f.name.length
  name : bytesAt p (14 + f.categories.length + 2 * f.entrances.length) f.name.length = f.name

/-- The form conditions of SET CONFIG: the ranges of R196, and the link timing of R49 in microseconds. The poll window
starts at the end of the BEACON, 640 after the frame start, or of the notice share when that is later, and the rest of the
frame holds 3388 bit times: 2914 of the longest POLL exchange and 474 of a PROBE exchange (R161). That the longest request
is a FIND of 24 symbols, 350 bit times, is read from R107 and R198 (log 8). -/
structure ConfigFormed (c : Configuration) : Prop where
  link : 2 ≤ c.frameLength ∧ c.frameLength ≤ 20 ∧ 2 ≤ c.faultLimit ∧ c.faultLimit ≤ 15
  paces : ∀ v, (v = c.paceStandard ∨ v = c.paceStepFree ∨ v = c.paceEvacuation) → 40 ≤ v ∧ v ≤ 250
  penalties : c.penaltyEscalator ≤ 1023 ∧ c.penaltyStair ≤ 1023 ∧ c.penaltyLift ≤ 1023
  rides : c.escalatorRide ≤ 255 ∧ c.stairClimb ≤ 255 ∧ c.liftWait ≤ 255 ∧ c.liftTravel ≤ 255
  load : c.hysteresis ≤ 63 ∧ c.staleLimit ≤ 255 ∧ c.alarmLevel ≤ 4095
  autoTurn : c.autoTurn = 0 ∨ (5 ≤ c.autoTurn ∧ c.autoTurn ≤ 255)
  limits : 64 ≤ c.effortLimit ∧ c.effortLimit ≤ 2048 ∧ 2 ≤ c.holdTime ∧ c.holdTime ≤ 60
  labels : c.labels.length = 8 ∧ ∀ l ∈ c.labels, l.1 ≤ 39 ∧ l.2 ≤ 39
  timing : max 640
      (125 * c.frameLength * (match c.noticeShare with | .none => 0 | .eighth => 1 | .quarter => 2 | .half => 4))
    + 3388 * (match c.bitRate with | .k250 => 4 | .k500 => 2 | .m1 => 1) ≤ 1000 * c.frameLength

/-- The payload of an edit command of this kind carries this edit: each field stands at its bytes, and the form conditions
hold (R3, R38, R49). The number stands at bytes 1 and 2, after the urgent byte. -/
def EditCarried (kind : EditKind) (p : List Byte) : Edit → Prop
  | .putListing n f => kind = .putListing ∧ wordAt p 1 = n ∧ 1 ≤ n ∧ n ≤ 1023 ∧ ListingCarried f p ∧ ListingFormed n f
  | .setListingStatus n status forward => kind = .setListingStatus ∧ wordAt p 1 = n ∧ 1 ≤ n ∧ n ≤ 1023
      ∧ byteAt p 3 = statusByte status ∧ wordAt p 4 = forward.getD 65535 ∧ ForwardFormed n status forward
  | .retireListing n => kind = .retireListing ∧ wordAt p 1 = n ∧ 1 ≤ n ∧ n ≤ 1023
  | .putNode n f => kind = .putNode ∧ wordAt p 1 = n ∧ n ≤ 2047 ∧ byteAt p 3 = f.floor ∧ f.floor ≤ 7
      ∧ byteAt p 4 = kindByte f.kind ∧ byteAt p 5 = extraByte f.kind ∧ (∀ c, f.kind = .amenity c → c ≤ 15)
      ∧ wordAt p 6 = f.x ∧ f.x ≤ 32767 ∧ wordAt p 8 = f.y ∧ f.y ≤ 32767
  | .removeNode n => kind = .removeNode ∧ wordAt p 1 = n ∧ n ≤ 2047
  | .putSegment n f => kind = .putSegment ∧ wordAt p 1 = n ∧ n ≤ 4095 ∧ wordAt p 3 = f.endA ∧ f.endA ≤ 2047
      ∧ wordAt p 5 = f.endB ∧ f.endB ≤ 2047 ∧ f.endA ≠ f.endB ∧ wordAt p 7 = f.length ∧ 1 ≤ f.length ∧ f.length ≤ 4095
      ∧ byteAt p 9 = segmentKindByte f.kind ∧ byteAt p 10 = directionByte f.direction
      ∧ byteAt p 11 = segmentStateByte f.state
  | .setSegmentState n state => kind = .setSegmentState ∧ wordAt p 1 = n ∧ n ≤ 4095
      ∧ byteAt p 3 = segmentStateByte state
  | .removeSegment n => kind = .removeSegment ∧ wordAt p 1 = n ∧ n ≤ 4095
  | .setExit n state => kind = .setExit ∧ wordAt p 1 = n ∧ n ≤ 2047
      ∧ byteAt p 3 = match state with | .usable => 0 | .blocked => 1
  | .setHome a node => kind = .setHome ∧ byteAt p 1 < 6 ∧ byteAt p 2 < 16 ∧ a.val = 16 * byteAt p 1 + byteAt p 2
      ∧ wordAt p 3 = node.getD 65535 ∧ ∀ n, node = some n → n ≤ 2047
  | .setConfig c => kind = .setConfig ∧ ConfigFields c 1 p ∧ (c.frozen = true ↔ byteAt p 26 % 2 = 1) ∧ ConfigFormed c

/-- The command code of an edit. -/
def editCode : EditKind → Nat
  | .putListing => 0x10 | .setListingStatus => 0x11 | .retireListing => 0x12 | .putNode => 0x13 | .removeNode => 0x14
  | .putSegment => 0x15 | .setSegmentState => 0x16 | .removeSegment => 0x17 | .setExit => 0x18 | .setHome => 0x19
  | .setConfig => 0x1A

/-- An optional field of a lookup: its value when its flag is set, within its limit, and else none. -/
def givenField (flag : Bool) (value limit : Nat) (field : Option Nat) : Prop :=
  if flag then field = some value ∧ value ≤ limit else field = none

/-- The parameters of a FIND, BROWSE or ROUTE request, which are the bytes after its type byte, carry this query: each
stands at its bytes and meets its condition (R107). -/
def QueryCarried (type : RequestType) (p : List Byte) : Query → Prop
  | .find l => type = .find ∧ l.typed = some (bytesAt p 4 (byteAt p 3)) ∧ 1 ≤ byteAt p 3 ∧ byteAt p 3 ≤ 24
      ∧ (∀ x ∈ bytesAt p 4 (byteAt p 3), x ≤ 39)
      ∧ givenField ((byteAt p 0).testBit 0) (byteAt p 1) 63 l.category
      ∧ givenField ((byteAt p 0).testBit 1) (byteAt p 2) 7 l.floor ∧ l.openOnly = (byteAt p 0).testBit 2
  | .browse l => type = .browse ∧ l.typed = none ∧ l.category = some (byteAt p 1) ∧ byteAt p 1 ≤ 63
      ∧ givenField ((byteAt p 0).testBit 1) (byteAt p 2) 7 l.floor ∧ l.openOnly = (byteAt p 0).testBit 2
  | .route target profile origin => type = .route
      ∧ (match target with
        | .listing n => byteAt p 0 = 0 ∧ wordAt p 1 = n ∧ 1 ≤ n ∧ n ≤ 1023
        | .node n => byteAt p 0 = 1 ∧ wordAt p 1 = n ∧ n ≤ 2047
        | .amenity c => byteAt p 0 = 2 ∧ wordAt p 1 = c ∧ c ≤ 15)
      ∧ ((profile = .standard ∧ byteAt p 3 = 0) ∨ (profile = .stepFree ∧ byteAt p 3 = 1))
      ∧ wordAt p 4 = origin.getD 65535 ∧ ∀ n, origin = some n → n ≤ 2047

/-! ### What a second counts -/

/-- A second event makes a load entry STALE: it is FRESH, and its age reaches a stale limit that is not 0 (R84). -/
abbrev staleNow (limit : Nat) (e : LoadEntry) : Prop :=
  e.freshness = .fresh ∧ 0 < limit ∧ limit ≤ min 255 (e.age + 1)

/-- A load entry as a second event leaves it (R84). -/
def aged (limit : Nat) (e : LoadEntry) : LoadEntry :=
  if staleNow limit e then { e with age := min 255 (e.age + 1), freshness := .stale }
  else if e.freshness = .fresh then { e with age := min 255 (e.age + 1) }
  else e

/-- The Load Monitor as a second event leaves it: every entry aged, C and the alarm as they were (R84). -/
def agedMonitor (limit : Nat) (lm : LoadMonitor) : LoadMonitor :=
  { lm with entries := lm.entries.map fun p => (p.1, aged limit p.2) }

/-- STALE_READING, when a second event makes an entry STALE (R84). -/
def staleFlag (limit : Nat) (lm : LoadMonitor) : AttnFlags := if ∃ p ∈ lm.entries, staleNow limit p.2 then 8 else 0

/-- The live entries as a second event leaves them: the hold countdown of each READY entry is one lower, and no other entry
changes (R114). -/
def holdsCounted (before after : List QueryEntry) : Prop :=
  after.length = before.length
    ∧ ∀ (i : Nat) (e : QueryEntry), before[i]? = some e →
      (∀ hold, e.state = .ready hold → after[i]? = some { e with state := .ready (hold - 1) })
      ∧ ((∀ hold, e.state ≠ .ready hold) → after[i]? = some e)

/-! ### Entries and answer queues -/

/-- The live entries after the stations that `gone` names have left: their QUEUED and READY entries are freed, the others
are HALTING with STATION_LEFT, and the entries of other stations are as they were (R120). -/
def afterLeaving (gone : Addr → Bool) (entries : List QueryEntry) : List QueryEntry :=
  entries.filterMap fun e =>
    if gone e.addr then
      match e.state with
      | .queued | .ready _ => none
      | .working | .halting _ => some { e with state := .halting .stationLeft }
    else some e

/-- The live entries after an evacuation entry in SERVICE: ROUTE entries QUEUED or READY are freed, WORKING ones halt with
EVACUATION, HALTING ones keep their cause, and no other entry changes (R121). -/
def afterEvacuation (entries : List QueryEntry) : List QueryEntry :=
  entries.filterMap fun e =>
    if isRoute e then
      match e.state with
      | .queued | .ready _ => none
      | .working => some { e with state := .halting .evacuation }
      | .halting _ => some e
    else some e

/-- The oldest QUEUED entry that the route arbiter (`route`), or else the find arbiter, serves: the nearest to the head of
the arrival sequence (R110). -/
def oldestWaiting (route : Bool) (s : State) : Option QueryEntry :=
  s.qt.entries.find? fun e => e.state == .queued && isRoute e == route

/-- The route arbiter grants when an entry waits for it: its engine is idle, the Epoch Controller is STEADY, and the latch
is clear or the unit ACTIVE (R110). -/
abbrev routeOpen (s : State) : Prop :=
  s.re.work = none ∧ s.ec.turn = .steady ∧ (s.eu.latch = false ∨ s.eu.unit = .active)

/-- The find arbiter grants when an entry waits for it, a latch or a build notwithstanding (R110). -/
abbrev findOpen (s : State) : Prop := s.fe.work = none ∧ s.ec.turn = .steady

/-- The work of the Find Engine at a grant: nothing is examined yet, and the clock is read once (R149). -/
def scanBegun (s : State) (e : QueryEntry) (l : Lookup) (browse : Bool) : FindWork :=
  { addr := e.addr, tag := e.tag, browse := browse, lookup := l, forming := false, clockSet := s.cs.clock.set
    minute := s.cs.clock.minute, position := 0, total := 0, results := [] }

/-- `t` is `s` after both arbiters have granted: each whose conditions hold makes its oldest QUEUED entry WORKING, which
records the epoch, and its engine begins that entry; nothing else changes (R110, R111). -/
structure Granted (s t : State) : Prop where
  frame : t = { s with qt := t.qt, re := t.re, fe := t.fe }
  entries : t.qt.entries = s.qt.entries.map fun e =>
    if (routeOpen s ∧ oldestWaiting true s = some e) ∨ (findOpen s ∧ oldestWaiting false s = some e) then
      { e with state := .working, epoch := some s.ec.epoch }
    else e
  route : routeOpen s → ∀ e target profile origin, oldestWaiting true s = some e →
    e.query = .route target profile origin → t.re = startRoute s e target profile origin
  routeKept : (¬routeOpen s ∨ oldestWaiting true s = none) → t.re = s.re
  find : findOpen s → ∀ e l, oldestWaiting false s = some e →
    (e.query = .find l → t.fe = { work := some (scanBegun s e l false) })
    ∧ (e.query = .browse l → t.fe = { work := some (scanBegun s e l true) })
  findKept : (¬findOpen s ∨ oldestWaiting false s = none) → t.fe = s.fe

/-- `t` is `s` after the route engine has become idle: a build that waited for it begins, and both arbiters grant (R110,
R182). -/
def RouteIdled (s t : State) : Prop := ∃ u, exec .exitTreeBuildStart s = .next u ∧ Granted u t

/-- A station as the freeing of one of its ROUTE entries at an evacuation entry leaves it. REFUSED EVACUATING of a QUEUED
entry goes into its own slot; of a READY entry in place of its READY message while that waits, else behind the queue
when it has room, and is dropped when it has none (R121). -/
def toldEvacuating (st : Station) (e : QueryEntry) : Station :=
  let message := some (e.tag, Downstream.refused .evacuating)
  let inPlace := { st with queue := st.queue.map fun x => if x.place = e.slot then { x with content := message } else x }
  match e.state with
  | .queued => inPlace
  | .ready _ =>
    if ∃ x ∈ st.queue, x.place = e.slot ∧ x.content.isSome = true ∧ x.inFlight = false then inPlace
    else if 4 ≤ st.queue.length then st
    else { st with queue := st.queue ++ [{ place := st.nextPlace, content := message, inFlight := false }]
                   nextPlace := st.nextPlace + 1 }
  | .working | .halting _ => st

/-- A station with groups raised: those it subscribes to become pending while it is ENABLED or DORMANT (R172). -/
def raised (groups : Groups) (st : Station) : Station :=
  if (st.state = .enabled ∨ st.state = .dormant) ∧ groups &&& st.subscription ≠ 0 then
    { st with pendingMask := st.pendingMask ||| (groups &&& st.subscription), raisedSince := true }
  else st

/-- A reply of a station, or the close of its window, on a trunk. -/
inductive RepliesOn (k : TrunkNo) : Instr → Prop
  | window : RepliesOn k (.replyWindowClose k)
  | empty (d : Nat) : RepliesOn k (.emptyReply k d)
  | ready (d : Nat) : RepliesOn k (.readyReply k d)
  | bad (d : Nat) (message : List Byte) : RepliesOn k (.badReply k d message)
  | probe (d : Nat) (content : StationReply) : RepliesOn k (.probeReply k d content)
  | find (d : Nat) (tag : Tag) (p : List Byte) : RepliesOn k (.findRequest k d tag p)
  | browse (d : Nat) (tag : Tag) (p : List Byte) : RepliesOn k (.browseRequest k d tag p)
  | route (d : Nat) (tag : Tag) (p : List Byte) : RepliesOn k (.routeRequest k d tag p)
  | page (d : Nat) (tag : Tag) (p : List Byte) : RepliesOn k (.pageRequest k d tag p)
  | cancel (d : Nat) (tag : Tag) (p : List Byte) : RepliesOn k (.cancelRequest k d tag p)
  | release (d : Nat) (tag : Tag) (p : List Byte) : RepliesOn k (.releaseRequest k d tag p)
  | seen (d : Nat) (tag : Tag) (p : List Byte) : RepliesOn k (.seenRequest k d tag p)
  | sleep (d : Nat) (tag : Tag) (p : List Byte) : RepliesOn k (.sleepRequest k d tag p)
  | wake (d : Nat) (tag : Tag) (p : List Byte) : RepliesOn k (.wakeRequest k d tag p)

/-! ### Searches -/

/-- A node that no search has reached, or that has been dropped from a frontier (R130, R134). -/
def unreached : NodeRecord := { cost := 16777215, via := none, settled := false }

/-- Node `n` is recorded at a cost by a segment, and stands at its place among the entries kept (R131, R133). -/
structure Recorded (cost segment n : Nat) (kept : List (Nat × Nat)) (r : Search) : Prop where
  node : recordOf r n = { cost := cost, via := some segment, settled := false }
  frontier : r.frontier.Perm ((cost, n) :: kept)
  ordered : r.frontier.Pairwise fun e f => e.1 < f.1 ∨ (e.1 = f.1 ∧ e.2 < f.2)

/-- The search `r` is `x` after a relaxation to node `n` at a tentative cost by a segment (R94, R133, R134). -/
structure Relaxed (cost segment n : Nat) (x r : Search) : Prop where
  /-- Skipped at the unreachable cost, for a settled node, and without a strict improvement. -/
  skipped : (16777215 ≤ cost ∨ (recordOf x n).settled = true ∨ (recordOf x n).cost ≤ cost) → r = x
  /-- A node that stands in the frontier is moved to its place. -/
  moved : cost < 16777215 → (recordOf x n).settled = false → cost < (recordOf x n).cost →
    (∃ e ∈ x.frontier, e.2 = n) →
    Recorded cost segment n (x.frontier.filter fun e => e.2 != n) r
      ∧ (∀ m, m ≠ n → recordOf r m = recordOf x m) ∧ r.approximate = x.approximate
  /-- Another is inserted while the frontier holds fewer than 512 entries. -/
  inserted : cost < 16777215 → (recordOf x n).settled = false → cost < (recordOf x n).cost →
    (∀ e ∈ x.frontier, e.2 ≠ n) → x.frontier.length < 512 →
    Recorded cost segment n x.frontier r
      ∧ (∀ m, m ≠ n → recordOf r m = recordOf x m) ∧ r.approximate = x.approximate
  /-- An overflow against a last entry that costs no more: the new node is dropped. -/
  dropped : ∀ kept lastCost last, cost < 16777215 → (recordOf x n).settled = false → cost < (recordOf x n).cost →
    (∀ e ∈ x.frontier, e.2 ≠ n) → x.frontier = kept ++ [(lastCost, last)] → 512 ≤ x.frontier.length →
    lastCost ≤ cost →
    recordOf r n = unreached ∧ r.frontier = x.frontier
      ∧ (∀ m, m ≠ n → recordOf r m = recordOf x m) ∧ r.approximate = true
  /-- An overflow against a last entry that costs more: the last node is dropped and the new one inserted. -/
  displaced : ∀ kept lastCost last, cost < 16777215 → (recordOf x n).settled = false → cost < (recordOf x n).cost →
    (∀ e ∈ x.frontier, e.2 ≠ n) → x.frontier = kept ++ [(lastCost, last)] → 512 ≤ x.frontier.length →
    cost < lastCost →
    Recorded cost segment n kept r ∧ recordOf r last = unreached
      ∧ (∀ m, m ≠ n → m ≠ last → recordOf r m = recordOf x m) ∧ r.approximate = true

/-- A tree that has been begun: every usable exit is a source at cost 0, in number order; those beyond the 512th are
dropped and the APPROXIMATE flag is set (R183). -/
def TreeBegun (wg : Graph) (x : Search) : Prop :=
  TableSorted wg.nodes →
    let exits := (wg.nodes.filter fun p => p.2.kind == .exit .usable).map fun p => p.1
    x.approximate = decide (512 < exits.length)
    ∧ x.frontier = (exits.take 512).map (fun n => (0, n))
    ∧ (∀ n, recordOf x n = { cost := if n ∈ exits.take 512 then 0 else 16777215, via := none, settled := false })
    ∧ ∀ n, n ∈ exits ↔ ∃ node, tableGet wg.nodes n = some node ∧ node.kind = .exit .usable

/-! ### Route answers -/

/-- Listing `m` is reached from listing `n` by so many forwards (R128). -/
inductive Forwarded (ds : Directory) : Nat → Nat → Nat → Prop
  | here (n : Nat) : Forwarded ds 0 n n
  | hop (k n f m : Nat) (l : Listing) : tableGet ds.listings n = some l → l.status = .relocated → l.forward = some f →
      Forwarded ds k f m → Forwarded ds (k + 1) n m

/-- The predecessors lead from node `n` back to node `o`, and the segments taken are these in walking order (R136). -/
inductive Traced (wg : Graph) (x : Search) : Nat → List Nat → Nat → Prop
  | origin (n : Nat) : (recordOf x n).via = none → Traced wg x n [] n
  | back (n m : Nat) (g : Segment) (segments : List Nat) (o : Nat) : (recordOf x n).via = some m →
      tableGet wg.segments m = some g → Traced wg x (otherEnd g n) segments o → Traced wg x n (segments ++ [m]) o

/-- Node ni of a path that leaves `first`. -/
def nodeAt (first : Nat) (legs : List Leg) : Nat → Nat
  | 0 => first
  | i + 1 => ((legs[i]?).map fun l => l.node).getD 0

/-- The kind of the segment that leaves node ni. -/
def kindAt (legs : List Leg) (i : Nat) : Option SegmentKind := (legs[i]?).map fun l => l.kind

/-- The sum of the lengths of the segments between node ni and node nj. -/
def lengthBetween (legs : List Leg) (i j : Nat) : Nat := (((legs.take j).drop i).map fun l => l.length).sum

/-- The turn at node ni between two horizontal segments, none when it is STRAIGHT (R138). -/
def turnAt (wg : Graph) (first : Nat) (legs : List Leg) (i : Nat) : Option (StepAction × Nat) :=
  let here := nodeAt first legs i
  match classAt wg (nodeAt first legs (i - 1)) here (nodeAt first legs (i + 1)) with
  | .straight => none
  | .left => some (.left, floorOf wg here)
  | .right => some (.right, floorOf wg here)
  | .back => some (.back, floorOf wg here)

/-- The TAKE of the vertical run that begins at node ni: its way by the floors of its ends, or of its first segment when
those are equal, and the floor of its end (R138). -/
def takeAt (wg : Graph) (first : Nat) (legs : List Leg) (i : Nat) (kind : SegmentKind) : StepAction × Nat :=
  let run := ((legs.drop i).takeWhile fun l => l.kind == kind).length
  let here := floorOf wg (nodeAt first legs i)
  let last := floorOf wg (nodeAt first legs (i + run))
  let next := floorOf wg (nodeAt first legs (i + 1))
  (.take kind (if here < last then .up else if last < here then .down else if here < next then .up else .down), last)

/-- The step at node ni besides START and ARRIVE (R138). -/
def stepAt (wg : Graph) (first : Nat) (legs : List Leg) (i : Nat) : Option (StepAction × Nat) :=
  match kindAt legs i with
  | none => none
  | some .walk | some .ramp =>
    if 0 < i ∧ (kindAt legs (i - 1) = some .walk ∨ kindAt legs (i - 1) = some .ramp) then turnAt wg first legs i else none
  | some kind => if 0 < i ∧ kindAt legs (i - 1) = some kind then none else some (takeAt wg first legs i kind)

/-- The steps of a path with the places of their nodes on it: START, the steps on the way, ARRIVE (R138). -/
def placedSteps (wg : Graph) (first : Nat) (legs : List Leg) : List (Nat × StepAction × Nat) :=
  (0, .start, floorOf wg first)
    :: (List.range legs.length).filterMap (fun i => (stepAt wg first legs i).map fun p => (i, p))
    ++ [(legs.length, .arrive, floorOf wg (nodeAt first legs legs.length))]

/-- The untruncated steps: each with the length walked since the step before it (R138, R139). -/
def stepsOf (wg : Graph) (first : Nat) (legs : List Leg) : List RouteStep :=
  let placed := placedSteps wg first legs
  List.zipWith (fun before p =>
      { node := nodeAt first legs p.1, action := p.2.1, floor := p.2.2, distance := lengthBetween legs before p.1 })
    (0 :: placed.map fun p => p.1) placed

/-- The steps of an answer: distances saturated, and more than 64 steps cut to the first 63 and an ARRIVE that carries the
length after the 63rd (R139, R140). -/
def answerSteps (wg : Graph) (first : Nat) (legs : List Leg) : List RouteStep :=
  let all := (stepsOf wg first legs).map fun x => { x with distance := min 65535 x.distance }
  if all.length ≤ 64 then all
  else
    let kept := (((placedSteps wg first legs)[62]?).map fun p => p.1).getD 0
    all.take 63 ++ [{ node := nodeAt first legs legs.length, action := .arrive
                      floor := floorOf wg (nodeAt first legs legs.length)
                      distance := min 65535 (lengthBetween legs kept legs.length) }]

/-- The path of an ended search or walk: the predecessors traced back from the reached node, or the segments walked
(R136, R144). -/
def PathTaken (s : State) (w : RouteWork) (o : Nat) (segments : List Nat) : Prop :=
  if w.profile = .evacuation then segments = w.taken
  else segments.length ≤ 2048 ∧ ∃ n, w.reached = some n ∧ Traced s.wg s.re.search n segments o

/-- The header and the steps of a route answer (R136 to R144). -/
structure RouteAnswered (s : State) (w : RouteWork) (epoch : Nat) (h : RouteHeader) (steps : List RouteStep) : Prop where
  tag : h.tag = w.tag
  status : h.status = w.outcome.getD .noRoute
  epoch : h.epoch = epoch
  finalListing : h.finalListing = w.finalListing
  approximate : h.flags.approximate =
    if w.profile = .evacuation then s.eu.tree.approximate else s.re.search.approximate
  relocated : h.flags.relocated = w.relocated
  evacuation : h.flags.evacuation = true ↔ w.profile = .evacuation
  counts : h.stepCount = steps.length ∧ h.pageCount = (steps.length + 7) / 8
  failed : w.outcome ≠ some .found → steps = [] ∧ h.reached = none ∧ h.cost = 0 ∧ h.seconds = 0 ∧ h.minutes = 0
    ∧ h.flags.truncated = false ∧ h.flags.closedNow = false ∧ h.flags.long = false
  found : ∀ o segments, w.outcome = some .found → w.origin = some o → PathTaken s w o segments →
    let legs := legsOf s.wg o segments
    let seconds := totalSeconds s.config w.profile legs
    steps = answerSteps s.wg o legs ∧ h.reached = w.reached
      ∧ (w.profile = .evacuation → h.cost = (recordOf s.eu.tree o).cost)
      ∧ (∀ n, w.profile ≠ .evacuation → w.reached = some n → h.cost = (recordOf s.re.search n).cost)
      ∧ h.seconds = seconds ∧ h.minutes = min 99 ((seconds + 59) / 60) ∧ h.flags.long = decide (5940 < seconds)
      ∧ h.flags.truncated = decide (64 < (stepsOf s.wg o legs).length)
      ∧ (w.finalListing = none → h.flags.closedNow = false)
      ∧ (∀ m l, w.finalListing = some m → tableGet s.ds.listings m = some l →
        h.flags.closedNow = !openNow l s.cs.clock.set s.cs.clock.minute)

/-- What the Route Engine begins for an entry: the origin first, then a walk while the unit is ACTIVE, else the target
(R127, R129, R130, R144). -/
structure RouteStarted (s : State) (e : QueryEntry) (target : Target) (profile : Profile) (origin : Option Nat)
    (r : RouteEngine) : Prop where
  /-- The origin fails: FORMING with NO_ROUTE, no final listing, no forward followed and no settle. -/
  noOrigin : ((∃ n, origin = some n ∧ tableGet s.wg.nodes n = none) ∨ (origin = none ∧ s.wg.homes[e.addr] = none)) →
    r.search.approximate = false ∧ ∃ w, r.work = some w ∧ w.addr = e.addr ∧ w.tag = e.tag ∧ w.phase = .forming
      ∧ w.outcome = some .noRoute ∧ w.finalListing = none ∧ w.relocated = false ∧ w.settles = 0
      ∧ (w.profile = .evacuation ↔ (s.eu.unit = .active ∨ profile = .evacuation))
  /-- The origin resolves. -/
  resolved : ∀ o, ((origin = some o ∧ tableGet s.wg.nodes o ≠ none) ∨ (origin = none ∧ s.wg.homes[e.addr] = some o)) →
    let begun : RouteWork :=
      { addr := e.addr, tag := e.tag, phase := .searching, profile := profile, origin := some o, targets := [],
        finalListing := none, relocated := false, settles := 0, limit := s.config.effortLimit, outcome := none,
        reached := none, stands := 0, taken := [] }
    (s.eu.unit = .active → r.search.approximate = false
      ∧ r.work = some { begun with phase := .walking, profile := .evacuation, stands := o })
    ∧ (s.eu.unit ≠ .active →
      let t := resolveTarget s.ds s.wg target
      let aimed := { begun with targets := t.targets, finalListing := t.finalListing, relocated := t.relocated }
      (t.targets = [] → r.search.approximate = false
        ∧ r.work = some { aimed with phase := .forming, outcome := some .noRoute })
      ∧ (t.targets ≠ [] → r.work = some aimed ∧ r.search.frontier = [(0, o)] ∧ r.search.approximate = false
        ∧ ∀ n, recordOf r.search n = { cost := if n = o then 0 else 16777215, via := none, settled := false }))

/-! ### Lookups -/

/-- Key `a` comes before key `b`: by the lower ordinal where they first differ, or as a proper prefix (R5). -/
def KeyBefore (a b : List Nat) : Prop :=
  ∃ i, a.take i = b.take i ∧ ((a.length = i ∧ i < b.length) ∨ ∃ x y, a[i]? = some x ∧ b[i]? = some y ∧ x < y)

/-- Directory order of two listings by their keys and numbers (R5). -/
def DirectoryOrder (a : List Nat) (m : Nat) (b : List Nat) (n : Nat) : Prop := KeyBefore a b ∨ (a = b ∧ m < n)

/-- A listing number at its place in an index that stands in directory order under the keys (R17). -/
def indexWith (key : Nat → List Nat) (n : Nat) (index : List Nat) : List Nat :=
  index.filter (fun m => directoryBefore (key m, m) (key n, n)) ++ n
    :: index.filter (fun m => directoryBefore (key n, n) (key m, m))

/-- The result entry of a listing under the clock that a scan has read (R155). -/
def resultEntry (w : FindWork) (n : Nat) (l : Listing) : FindResult :=
  { number := n, name := l.name, floor := l.floor, status := l.status, forward := l.forward
    openNow := openNow l w.clockSet w.minute, reachStandard := l.reachStandard, reachStepFree := l.reachStepFree }

end Sys2Proof.Safety
end

