-- ==== Sys2Proof/Certificates/Slice0/Obligations.lean ====
section
/-! DEFINITION. The statements for the provers, by the rules of the manual. -/

open Sys2Proof Sys2Proof.Machine Sys2Proof.Safety

/-! ### The queue, reset and the invariants -/

/-- A step runs the command at the front of the queue on the part with the rest of the queue. An empty queue leaves
the part idle, which is the model's choice (log 1, log 2). -/
def Obligations.StepTakesFrontCommand : Prop :=
  (∀ (c : Instr) (rest : List Instr) (s : State),
      step { s with pending := c :: rest } = exec c { s with pending := rest })
    ∧ ∀ s : State, s.pending = [] → step s = .next s

/-- No command stops the part and none touches the queue of waiting commands. That every command answers a next state
is the model's reading of a manual that gives no event ending in a fault (log 32). -/
def Obligations.EveryCommandCompletes : Prop :=
  ∀ (c : Instr) (s : State), ∃ t, exec c s = .next t ∧ t.pending = s.pending

/-- R146, R194: RESET low holds the part reset: every command but a release is without effect, ATTN is released and
the trunk drivers are disabled. The release and FULL RESET bring every block to its full-reset values. The work arrays
and the frontier are kept (R146), and so are the waiting commands and the record of what MISO carried (log 19). That
the state stays as it was until the release, and that a release of a pin that is not held has no effect, are the
model's choices (log 15). -/
def Obligations.ResetHoldsAndClears : Prop :=
  (∀ (c : Instr) (s : State), s.resetHeld = true → c ≠ .resetAssert → c ≠ .resetRelease →
    exec c s = .next s ∧ attnPinHigh s = true ∧ ∀ k sending, driverEnabled s k sending = false)
    ∧ ((∀ s : State, exec .resetAssert s = .next { s with resetHeld := true }
      ∧ attnPinHigh { s with resetHeld := true } = true)
    ∧ (∀ s : State, s.resetHeld = true → exec .resetRelease s = .next
        { State.reset with pending := s.pending, ep := { State.reset.ep with miso := s.ep.miso },
                           re := { work := none, search := s.re.search } })
    ∧ (∀ s : State, s.resetHeld = false → exec .resetRelease s = .next s)
    ∧ ∀ s : State, taking s → exec (.fullReset [0]) s = .next
        { State.reset with pending := s.pending, ep := { State.reset.ep with miso := [0, 0] },
                           re := { work := none, search := s.re.search } })

/-- The full-reset values of R23, R46, R74, R75, R88, R123, R178, R187, R191, R194 and R196, field by field, with the
defaults of the configuration, and that they meet every invariant that the steps keep. The invariant of the frontiers
rests on the work arrays and the tree that the model gives a part after power-on, which is the model's choice (log
18). The frame that has begun on every trunk is the model's choice too (log 25). -/
def Obligations.ResetValues : Prop :=
  (EngineInv State.reset ∧ TableInv State.reset ∧ QueuesInv State.reset ∧ MasksInv State.reset ∧ LoadInv State.reset
    ∧ IndexInv State.reset ∧ GraphInv State.reset ∧ FrontiersInv State.reset ∧ StageInv State.reset)
    ∧ (let s := State.reset
  s.service = .loading
    ∧ s.config.frameLength = 8 ∧ s.config.noticeShare = .quarter ∧ s.config.bitRate = .m1 ∧ s.config.faultLimit = 6
    ∧ s.config.paceStandard = 120 ∧ s.config.paceStepFree = 80 ∧ s.config.paceEvacuation = 100
    ∧ s.config.penaltyEscalator = 150 ∧ s.config.penaltyStair = 300 ∧ s.config.penaltyLift = 400
    ∧ s.config.escalatorRide = 25 ∧ s.config.stairClimb = 20 ∧ s.config.liftWait = 45 ∧ s.config.liftTravel = 6
    ∧ s.config.hysteresis = 16 ∧ s.config.staleLimit = 60 ∧ s.config.alarmLevel = 0 ∧ s.config.autoTurn = 30
    ∧ s.config.effortLimit = 2048 ∧ s.config.holdTime = 20 ∧ s.config.frozen = false
    ∧ s.config.labels = [(12, 2), (17, 1), (22, 2), (22, 3), (22, 4), (22, 5), (22, 6), (22, 7)]
    ∧ s.ds = { listings := [], nameIndex := [] }
    ∧ s.wg.nodes = [] ∧ s.wg.segments = [] ∧ (∀ a : Addr, s.wg.homes[a] = none)
    ∧ s.cs.queue = [] ∧ s.cs.nextSeq = 0 ∧ s.cs.schedule = [] ∧ s.cs.clock = { set := false, minute := 0, seconds := 0 }
    ∧ s.ec.epoch = 0 ∧ s.ec.turn = .steady ∧ s.ec.wanted = false ∧ s.ec.rollover = false ∧ s.ec.countdown = 30
    ∧ s.ec.report.epoch = 0 ∧ s.ec.report.applied = 0 ∧ s.ec.report.rejected = 0 ∧ s.ec.report.first = none
    ∧ s.ec.report.groups = 0 ∧ s.ec.report.unreachableStandard = 0 ∧ s.ec.report.unreachableStepFree = 0
    ∧ s.lm.entries = [] ∧ s.lm.congestedCount = 0 ∧ s.lm.tripped = false
    ∧ s.qt.entries = [] ∧ s.re.work = none ∧ s.fe.work = none
    ∧ s.eu.latch = false ∧ s.eu.unit = .off ∧ s.eu.asserted = false ∧ s.eu.differing = 0
    ∧ s.eu.tree.approximate = false
    ∧ (∀ a : Addr, (stationAt s a).state = .absent ∧ (stationAt s a).subscription = BitVec.allOnes 12
        ∧ (stationAt s a).pendingMask = 0 ∧ (stationAt s a).queue = [] ∧ (stationAt s a).delivery = false
        ∧ (stationAt s a).misses = 0 ∧ (stationAt s a).attempts = 0 ∧ (stationAt s a).countdown = 0
        ∧ (stationAt s a).spacing = 0 ∧ (stationAt s a).overruns = 0 ∧ (stationAt s a).raisedSince = false
        ∧ (stationAt s a).changed = false)
    ∧ (∀ t : TrunkNo, (trunkAt s t).frame = 0 ∧ (trunkAt s t).pollPtr = 15 ∧ (trunkAt s t).noticePtr = 15
        ∧ (trunkAt s t).resetPtr = 15 ∧ (trunkAt s t).probePtr = 15 ∧ (trunkAt s t).exchange = none
        ∧ (trunkAt s t).settings = { frameLength := 8, noticeShare := .quarter, bitRate := .m1, faultLimit := 6 })
    ∧ s.ep.flags = 0 ∧ s.ep.mask = BitVec.allOnes 6
    ∧ s.ep.reply = { status := .ok, overrun := false, data := [] })

/-- R60, R72, R110, R125, R147, R182: every step keeps at most one entry with each engine, the one its work record
names, and a work record names such an entry; none is with either engine while a turn applies or validates, none with
the route engine while the tree is built, and no expiry of the auto-turn countdown waits during a turn. So no entry is
WORKING while the Epoch Controller is APPLYING or VALIDATING, and no ROUTE entry while the unit is BUILDING. -/
def Obligations.StepKeepsEngineInv : Prop :=
  (∀ s t : State, EngineInv s → step s = .next t → EngineInv t)
    ∧ ∀ s : State, EngineInv s → ∀ e ∈ s.qt.entries, e.state = .working →
      ¬(s.ec.turn = .applying ∨ s.ec.turn = .validating) ∧ (isRoute e = true → s.eu.unit ≠ .building)

/-- R103, R106: every step keeps at most 32 live entries, at most 2 of one station, and no tag twice at a station. -/
def Obligations.StepKeepsTableInv : Prop := ∀ s t : State, TableInv s → step s = .next t → TableInv t

/-- R164, R170, R172: every step keeps at most four slots in every answer queue, with places that rise in its order
and at most one slot in flight, a filled one; and every step keeps each pending mask within the subscription mask, and
empty outside ENABLED and DORMANT. The places are the model's numbers (log 16). -/
def Obligations.StepKeepsStationsInv : Prop :=
  ∀ s t : State, step s = .next t → (QueuesInv s → QueuesInv t) ∧ (MasksInv s → MasksInv t)

/-- R66, R76, R79, R82: every step keeps one load entry for each in-use segment, C equal to the number of CONGESTED
entries, and every live and sampled weight within 16 to 64. -/
def Obligations.StepKeepsLoadInv : Prop := ∀ s t : State, LoadInv s → step s = .next t → LoadInv t

/-- R16, R17: every step keeps the name index in directory order with every in-use slot exactly once. -/
def Obligations.StepKeepsIndexInv : Prop := ∀ s t : State, IndexInv s → step s = .next t → IndexInv t

/-- R28, R44: every step keeps the graph and the directory consistent: each adjacency list holds exactly the in-use
segments that name its node, at most six; the ends of a segment are two different in-use nodes on floors that suit its
kind; entrances are ENTRANCE nodes and homes KIOSK nodes; and the configuration stays within its ranges. -/
def Obligations.StepKeepsGraphInv : Prop := ∀ s t : State, GraphInv s → step s = .next t → GraphInv t

/-- R131: every step keeps both frontiers in their order with at most 512 entries, no node twice, only nodes that are
not settled, and each entry at the best cost of its node. -/
def Obligations.StepKeepsFrontiersInv : Prop := ∀ s t : State, FrontiersInv s → step s = .next t → FrontiersInv t

/-- R47, R50, R53: every step keeps the staged queue, the scheduled list, their entries and the clock within their
ranges (sequence numbers below 65536, schedule numbers 1 to 255, minutes 0 to 1439), and the list in its order with no
number twice. -/
def Obligations.StepKeepsStageInv : Prop := ∀ s t : State, StageInv s → step s = .next t → StageInv t

/-! ### Frames of the edit port -/

/-- R188 to R190, R197: a command frame that ends while the held status is PENDING is discarded unchecked and sets the
overrun flag. Else checks 1 to 3: a frame that is not whole is refused BAD_LENGTH (2), then an unknown kind
UNKNOWN_COMMAND (3), then a length byte above 250 or a length that is not the command's own BAD_LENGTH; bytes beyond
the length are ignored: the next state is that of the frame without them, but for the bytes driven on MISO. A refused
command changes nothing. A REPLY returns 0x00, the status with the overrun flag in bit 7, the data length, the data and
0x00 beyond it, as many bytes as are clocked, and changes nothing; MISO is high-impedance while SEL is high. A reply
formed replaces the held one, with the overrun flag of the frames discarded meanwhile, and reads the clock and the station
states then (R11, R22, R177). That the command's step and the forming of its reply are two steps, and that MISO is
recorded, are the model's choices (log 14, log 19). -/
def Obligations.FramesAndReplies : Prop :=
  (((∀ (c : Instr) (f : List Byte) (s : State), frameBytes c = some f → s.resetHeld = false →
      s.ep.reply.status = .pending → exec c s = .next
        { s with ep := { s.ep with miso := List.replicate (f.length + 1) 0, discarded := true
                                   reply := { s.ep.reply with overrun := true } } })
    ∧ ∀ (kind : Byte) (f : List Byte) (s : State), kind ∉ hostKinds → s.resetHeld = false →
      s.ep.reply.status = .pending → exec (.unknownCommand kind f) s = .next
        { s with ep := { s.ep with miso := List.replicate (f.length + 1) 0, discarded := true
                                   reply := { s.ep.reply with overrun := true } } })
    ∧ ((∀ (c : Instr) (f : List Byte) (s : State), frameBytes c = some f → taking s → frameWhole f = false →
      exec c s = .next (taken (f.length + 1) (refusedWith 2) s))
    ∧ (∀ (c : Instr) (len : Byte) (rest : List Byte) (s : State), frameBytes c = some (len :: rest) → taking s →
      250 < len.toNat → exec c s = .next (taken (rest.length + 2) (refusedWith 2) s))
    ∧ (∀ (c : Instr) (n : Nat) (p : List Byte) (s : State), fixedLength c = some n → frameBytes c = some (frameOf p) →
      p.length ≤ 250 → p.length ≠ n → taking s → exec c s = .next (taken (p.length + 2) (refusedWith 2) s))
    ∧ (∀ (p : List Byte) (s : State), p.length ≤ 250 → taking s →
      let c := byteAt p 11
      let e := byteAt p (12 + c)
      let k := byteAt p (13 + c + 2 * e)
      (p.length ≠ 14 + c + 2 * e + k →
        exec (.putListing (frameOf p)) s = .next (taken (p.length + 2) (refusedWith 2) s))
      ∧ (p.length % 3 ≠ 0 → exec (.load (frameOf p)) s = .next (taken (p.length + 2) (refusedWith 2) s))
      ∧ (p.length < 3 → exec (.schedule (frameOf p)) s = .next (taken (p.length + 2) (refusedWith 2) s))
      ∧ (∀ kind, 3 ≤ p.length → editKindOf (byteAt p 2) = some kind → editFits kind (p.drop 3) = false →
        exec (.schedule (frameOf p)) s = .next (taken (p.length + 2) (refusedWith 2) s))
      ∧ (3 ≤ p.length → editKindOf (byteAt p 2) = none →
        exec (.schedule (frameOf p)) s = .next (taken (p.length + 2) (refusedWith 1) s)))
    ∧ (∀ command ∈ frameCommands, ∀ p : List Byte, p.length ≤ 250 →
      ∀ (beyond : List Byte) (s : State), taking s →
        ∃ t, exec (command (frameOf p)) s = .next t
          ∧ exec (command (frameOf p ++ beyond)) s = .next
            { t with ep := { t.ep with miso := List.replicate (p.length + 2 + beyond.length) 0 } })
    ∧ ∀ (kind : Byte) (f : List Byte) (s : State), kind ∉ hostKinds → taking s →
      exec (.unknownCommand kind f) s =
        .next (taken (f.length + 1) (refusedWith (if frameWhole f = true then 3 else 2)) s)))
    ∧ ((∀ (s : State) (beyond : Nat), s.resetHeld = false →
      exec (.reply (s.ep.reply.data.length + 3 + beyond)) s = .next
        { s with ep := { s.ep with miso :=
            [0, byteOf (replyStatusCode s.ep.reply.status + if s.ep.reply.overrun then 128 else 0),
             byteOf s.ep.reply.data.length] ++ s.ep.reply.data ++ List.replicate beyond 0 } })
    ∧ (∀ (s : State) (n : Nat), s.resetHeld = false → exec (.reply n) s = .next
        { s with ep := { s.ep with miso :=
            ([0, byteOf (replyStatusCode s.ep.reply.status + if s.ep.reply.overrun then 128 else 0),
             byteOf s.ep.reply.data.length] ++ s.ep.reply.data ++ List.replicate n 0).take n } })
    ∧ (∀ s : State, misoPin s none = .highImpedance)
    ∧ (∀ (s : State) (i : Nat) (b : Byte), s.resetHeld = false → s.ep.miso[i / 8]? = some b →
      misoPin s (some i) = if b.getMsbD (i % 8) then .high else .low)
    ∧ ∀ (s : State) (f : Forming) (r : FormedReply), s.resetHeld = false → s.ep.forming = some f →
      (f = .fixed r
        ∨ (∃ n l, f = .listing n l
          ∧ r = okReply (encodeListing n l (openNow l s.cs.clock.set s.cs.clock.minute)))
        ∨ ∃ stations, f = .changes stations
          ∧ r = okReply (stations.map fun a => [byteOf a.val, byteOf (stationCode (stationAt s a).state)]).flatten) →
      exec .replyFormed s = .next
        { s with ep := { s.ep with reply := { status := r.status, overrun := s.ep.discarded, data := r.data }
                                   forming := none, discarded := false } })

/-! ### Edits -/

/-- R3, R38, R48, R49, R198: a payload carries an edit exactly when every field stands at its bytes and meets the form
conditions of its kind; its urgent flag is bit 0 of its first byte, and the eleven kinds have the codes 0x10 to 0x1A. A
payload that carries no edit fails the form check and is refused BAD_FIELD (1). In STARTING and SERVICE a full queue
refuses an edit QUEUE_FULL (4), and else it is appended with the next sequence number, replies STAGED, and makes a turn
request if its urgent flag is set. The longest request in the link timing of SET CONFIG is the model's reading (log 8).
That the start of the turn keeps an auto-turn expiry which waits as turn-wanted is the model's choice (log 5). -/
def Obligations.EditsStaged : Prop :=
  ((∀ (kind : EditKind) (p : List Byte) (edit : Edit), editOf kind p = some edit ↔ EditCarried kind p edit)
    ∧ (∀ p : List Byte, urgentOf p = true ↔ byteAt p 0 % 2 = 1)
    ∧ ∀ (code : Nat) (kind : EditKind), editKindOf code = some kind ↔ code = editCode kind)
  ∧ ∀ (kind : EditKind) (p : List Byte) (s : State), taking s → p.length ≤ 250 → editFits kind p = true →
    (editOf kind p = none → exec (editInstr kind (frameOf p)) s = .next (taken (p.length + 2) (refusedWith 1) s))
    ∧ ∀ edit, editOf kind p = some edit → s.service ≠ .loading →
      (64 ≤ s.cs.queue.length →
        exec (editInstr kind (frameOf p)) s = .next (taken (p.length + 2) (refusedWith 4) s))
      ∧ (s.cs.queue.length < 64 →
        exec (editInstr kind (frameOf p)) s = .next
          (taken (p.length + 2) { status := .staged, data := be16 s.cs.nextSeq }
            (requestIf (urgentOf p)
              { s with cs := { s.cs with queue := s.cs.queue ++ [{ edit := edit, seq := s.cs.nextSeq }]
                                         nextSeq := (s.cs.nextSeq + 1) % 65536 } })))

/-- R73: in LOADING an edit that passes its form check is applied at once, or refused with its application reason. Which
edit a payload carries is as for a staged edit. -/
def Obligations.LoadingAppliesEdits : Prop :=
  ∀ (kind : EditKind) (p : List Byte) (edit : Edit) (s : State), taking s → s.service = .loading → p.length ≤ 250 →
    editFits kind p = true → editOf kind p = some edit →
    (∀ reason, editTest edit s = some reason →
      exec (editInstr kind (frameOf p)) s =
        .next (taken (p.length + 2) (refusedWith (byteOf (reasonCode reason))) s))
    ∧ (editTest edit s = none →
      exec (editInstr kind (frameOf p)) s = .next (taken (p.length + 2) (okReply []) (applyEdit edit s).1))

/-- R5, R12 to R15, R17: what a listing edit that passes its tests does to its slot, to the name index and the groups
it raises; no other slot and nothing else changes. A filled slot and a changed key stand at their place in directory
order, the other entries keeping theirs. A replacement raises group 8 for any changed field and group 9 for a changed
status or forward, and nothing when it is identical. -/
def Obligations.ListingEditsApplied : Prop :=
  (∀ (edit : Edit) (s : State),
      ((∃ n f, edit = .putListing n f) ∨ (∃ n status forward, edit = .setListingStatus n status forward)
        ∨ ∃ n, edit = .retireListing n) →
      (applyEdit edit s).1 = { s with ds := (applyEdit edit s).1.ds })
    ∧ (∀ (n : Nat) (f : ListingForm) (s : State),
      (tableGet s.ds.listings n = none →
        tableGet (applyEdit (.putListing n f) s).1.ds.listings n = some
          { name := f.name, categories := sortNat f.categories, floor := f.floor, entrances := sortNat f.entrances,
            status := f.status, forward := f.forward, hours := f.hours, popularity := 0, reachStandard := false,
            reachStepFree := false }
        ∧ (applyEdit (.putListing n f) s).2 = groupBit 8
        ∧ (IndexInv s → (applyEdit (.putListing n f) s).1.ds.nameIndex =
          indexWith (fun m => if m = n then f.name else nameOf s.ds m) n s.ds.nameIndex))
      ∧ (∀ old, tableGet s.ds.listings n = some old →
        tableGet (applyEdit (.putListing n f) s).1.ds.listings n = some
          { name := f.name, categories := sortNat f.categories, floor := f.floor, entrances := sortNat f.entrances,
            status := f.status, forward := f.forward, hours := f.hours, popularity := old.popularity,
            reachStandard := old.reachStandard, reachStepFree := old.reachStepFree }
        ∧ (old.name = f.name → (applyEdit (.putListing n f) s).1.ds.nameIndex = s.ds.nameIndex)
        ∧ (old.name ≠ f.name → IndexInv s → (applyEdit (.putListing n f) s).1.ds.nameIndex =
          indexWith (fun m => if m = n then f.name else nameOf s.ds m) n (s.ds.nameIndex.filter fun m => m != n))
        ∧ (applyEdit (.putListing n f) s).2 =
          (if old.name = f.name ∧ old.categories = sortNat f.categories ∧ old.floor = f.floor
              ∧ old.entrances = sortNat f.entrances ∧ old.status = f.status ∧ old.forward = f.forward
              ∧ old.hours = f.hours then 0 else groupBit 8)
            ||| (if old.status = f.status ∧ old.forward = f.forward then 0 else groupBit 9))
      ∧ ∀ m, m ≠ n → tableGet (applyEdit (.putListing n f) s).1.ds.listings m = tableGet s.ds.listings m)
    ∧ (∀ (n : Nat) (status : ListingStatus) (forward : Option Nat) (old : Listing) (s : State),
      tableGet s.ds.listings n = some old →
        tableGet (applyEdit (.setListingStatus n status forward) s).1.ds.listings n =
          some { old with status := status, forward := forward }
        ∧ (applyEdit (.setListingStatus n status forward) s).1.ds.nameIndex = s.ds.nameIndex
        ∧ (applyEdit (.setListingStatus n status forward) s).2 =
          (if old.status = status ∧ old.forward = forward then 0 else groupBit 9)
        ∧ ∀ m, m ≠ n →
          tableGet (applyEdit (.setListingStatus n status forward) s).1.ds.listings m = tableGet s.ds.listings m)
    ∧ (∀ (n : Nat) (s : State), TableSorted s.ds.listings →
        tableGet (applyEdit (.retireListing n) s).1.ds.listings n = none
        ∧ (applyEdit (.retireListing n) s).1.ds.nameIndex = s.ds.nameIndex.filter (fun m => m != n)
        ∧ (applyEdit (.retireListing n) s).2 = groupBit 8
        ∧ ∀ m, m ≠ n → tableGet (applyEdit (.retireListing n) s).1.ds.listings m = tableGet s.ds.listings m)
    ∧ ∀ (a b : List Nat) (m n : Nat), directoryBefore (a, m) (b, n) = true ↔ DirectoryOrder a m b n

/-- R28, R39 to R43, R77, R82, R83: what the graph edits do, and the floor groups they raise. Filling a segment
inserts it into the adjacency lists of its two ends and creates its load entry. Replacing it keeps its sampled weight
and its load entry, and the lists follow the ends. Removing it takes it out of both lists and discards the entry; a
CONGESTED one takes 1 from C, which may re-arm the alarm. No other node, segment, load entry or home changes, and nothing
else of the part. -/
def Obligations.GraphEditsApplied : Prop :=
  ((∀ (n : Nat) (f : NodeForm) (s : State),
      let r := applyEdit (.putNode n f) s
      (tableGet s.wg.nodes n = none →
        tableGet r.1.wg.nodes n = some { toNodeForm := f, adjacency := [] } ∧ r.2 = groupBit f.floor)
      ∧ (∀ x, tableGet s.wg.nodes n = some x →
        tableGet r.1.wg.nodes n = some { toNodeForm := f, adjacency := x.adjacency }
        ∧ r.2 = (if x.toNodeForm = f then 0 else groupBit x.floor ||| groupBit f.floor))
      ∧ (∀ m, m ≠ n → tableGet r.1.wg.nodes m = tableGet s.wg.nodes m)
      ∧ r.1 = { s with wg := { s.wg with nodes := r.1.wg.nodes } })
    ∧ (∀ (n : Nat) (x : Node) (s : State), TableSorted s.wg.nodes → tableGet s.wg.nodes n = some x →
        let r := applyEdit (.removeNode n) s
        tableGet r.1.wg.nodes n = none ∧ r.2 = groupBit x.floor
        ∧ (∀ m, m ≠ n → tableGet r.1.wg.nodes m = tableGet s.wg.nodes m)
        ∧ r.1 = { s with wg := { s.wg with nodes := r.1.wg.nodes } })
    ∧ (∀ (n : Nat) (x : Node) (state : ExitState) (s : State), tableGet s.wg.nodes n = some x →
        let r := applyEdit (.setExit n state) s
        tableGet r.1.wg.nodes n = some { x with kind := .exit state }
        ∧ r.2 = (if x.kind = .exit state then 0 else groupBit x.floor)
        ∧ (∀ m, m ≠ n → tableGet r.1.wg.nodes m = tableGet s.wg.nodes m)
        ∧ r.1 = { s with wg := { s.wg with nodes := r.1.wg.nodes } })
    ∧ ∀ (a : Addr) (node : Option Nat) (s : State),
        let r := applyEdit (.setHome a node) s
        r.1.wg.homes[a] = node ∧ r.2 = 0
        ∧ (∀ b : Addr, b ≠ a → r.1.wg.homes[b] = s.wg.homes[b])
        ∧ r.1 = { s with wg := { s.wg with homes := r.1.wg.homes } })
    ∧ ((∀ (n : Nat) (f : SegmentForm) (s : State), f.endA ≠ f.endB → tableGet s.wg.segments n = none →
      let r := applyEdit (.putSegment n f) s
      tableGet r.1.wg.segments n = some { toSegmentForm := f, weight := 16 }
      ∧ tableGet r.1.lm.entries n = some
        { reading := 0, threshold := 128, freshness := .none, age := 0, congested := false, weight := 16, episodes := 0 }
      ∧ (∀ m x, tableGet s.wg.nodes m = some x → tableGet r.1.wg.nodes m = some
          (if m = f.endA ∨ m = f.endB then { x with adjacency := insertNat n x.adjacency } else x))
      ∧ r.2 = groupBit (floorOf s.wg f.endA) ||| groupBit (floorOf s.wg f.endB)
      ∧ (∀ m, m ≠ n → tableGet r.1.wg.segments m = tableGet s.wg.segments m)
      ∧ (∀ m, tableGet s.wg.nodes m = none → tableGet r.1.wg.nodes m = none)
      ∧ (∀ m, m ≠ n → tableGet r.1.lm.entries m = tableGet s.lm.entries m)
      ∧ r.1 = { s with wg := { r.1.wg with homes := s.wg.homes }, lm := { s.lm with entries := r.1.lm.entries } })
    ∧ (∀ (n : Nat) (f : SegmentForm) (old : Segment) (s : State), f.endA ≠ f.endB →
      tableGet s.wg.segments n = some old →
      let r := applyEdit (.putSegment n f) s
      tableGet r.1.wg.segments n = some { toSegmentForm := f, weight := old.weight }
      ∧ (∀ m x, tableGet s.wg.nodes m = some x → tableGet r.1.wg.nodes m = some
          (if m = f.endA ∨ m = f.endB then { x with adjacency := insertNat n x.adjacency }
          else if m = old.endA ∨ m = old.endB then { x with adjacency := x.adjacency.filter fun k => k != n } else x))
      ∧ r.2 = (if old.toSegmentForm = f then 0
          else (groupBit (floorOf s.wg old.endA) ||| groupBit (floorOf s.wg old.endB))
            ||| (groupBit (floorOf s.wg f.endA) ||| groupBit (floorOf s.wg f.endB)))
      ∧ (∀ m, m ≠ n → tableGet r.1.wg.segments m = tableGet s.wg.segments m)
      ∧ (∀ m, tableGet s.wg.nodes m = none → tableGet r.1.wg.nodes m = none)
      ∧ r.1 = { s with wg := { r.1.wg with homes := s.wg.homes } })
    ∧ (∀ (n : Nat) (old : Segment) (state : SegmentState) (s : State), tableGet s.wg.segments n = some old →
      let r := applyEdit (.setSegmentState n state) s
      tableGet r.1.wg.segments n = some { old with state := state }
      ∧ r.2 = (if old.state = state then 0 else groupBit (floorOf s.wg old.endA) ||| groupBit (floorOf s.wg old.endB))
      ∧ (∀ m, m ≠ n → tableGet r.1.wg.segments m = tableGet s.wg.segments m)
      ∧ r.1 = { s with wg := { s.wg with segments := r.1.wg.segments } })
    ∧ ∀ (n : Nat) (old : Segment) (s : State), TableSorted s.wg.segments → TableSorted s.lm.entries →
      old.endA ≠ old.endB → tableGet s.wg.segments n = some old →
      let r := applyEdit (.removeSegment n) s
      tableGet r.1.wg.segments n = none ∧ tableGet r.1.lm.entries n = none
      ∧ (∀ m x, tableGet s.wg.nodes m = some x → tableGet r.1.wg.nodes m = some
          (if m = old.endA ∨ m = old.endB then { x with adjacency := x.adjacency.filter fun k => k != n } else x))
      ∧ r.2 = groupBit (floorOf s.wg old.endA) ||| groupBit (floorOf s.wg old.endB)
      ∧ (∀ e, tableGet s.lm.entries n = some e →
        r.1.lm.congestedCount = (if e.congested then s.lm.congestedCount - 1 else s.lm.congestedCount)
        ∧ r.1.lm.tripped =
          (if e.congested then s.lm.tripped && decide (s.config.alarmLevel ≤ s.lm.congestedCount - 1)
          else s.lm.tripped))
      ∧ (∀ m, m ≠ n → tableGet r.1.wg.segments m = tableGet s.wg.segments m)
      ∧ (∀ m, tableGet s.wg.nodes m = none → tableGet r.1.wg.nodes m = none)
      ∧ (∀ m, m ≠ n → tableGet r.1.lm.entries m = tableGet s.lm.entries m)
      ∧ r.1 = { s with wg := { r.1.wg with homes := s.wg.homes }, lm := r.1.lm })

/-- R10: when a listing is open now, its hours not equal as R9 has them. -/
def Obligations.OpenNowDecided : Prop :=
  ∀ (l : Listing) (clockSet : Bool) (m : Nat), (∀ h, l.hours = some h → h.opens ≠ h.closes) →
    (openNow l clockSet m = true ↔ l.status = .opened ∧
      (l.hours = none ∨ clockSet = false
        ∨ ∃ h, l.hours = some h ∧
          ((h.opens < h.closes ∧ h.opens ≤ m ∧ m < h.closes) ∨ (h.closes < h.opens ∧ (h.opens ≤ m ∨ m < h.closes)))))

/-! ### The schedule, turns and the clock -/

/-- R54: the checks of SCHEDULE in their order, and the entry a good one adds with the lowest free number at its place
by minute. The kind and the payload of its edit are read as those of a staged edit. -/
def Obligations.ScheduleAdds : Prop :=
  ∀ (p : List Byte) (s : State), taking s → p.length ≤ 250 → scheduleFits p = true →
    ((1439 < wordAt p 0 ∨ ∀ kind, editKindOf (byteAt p 2) = some kind → editOf kind (p.drop 3) = none) →
      exec (.schedule (frameOf p)) s = .next (taken (p.length + 2) (refusedWith 1) s))
    ∧ ∀ kind edit, wordAt p 0 ≤ 1439 → editKindOf (byteAt p 2) = some kind → editOf kind (p.drop 3) = some edit →
      (s.cs.clock.set = false → exec (.schedule (frameOf p)) s = .next (taken (p.length + 2) (refusedWith 6) s))
      ∧ (s.cs.clock.set = true → 32 ≤ s.cs.schedule.length →
        exec (.schedule (frameOf p)) s = .next (taken (p.length + 2) (refusedWith 5) s))
      ∧ (s.cs.clock.set = true → s.cs.schedule.length < 32 → s.cs.schedule.Pairwise (fun e f => e.minute ≤ f.minute) →
        ∃ n, 1 ≤ n ∧ n ≤ 255 ∧ (∀ e ∈ s.cs.schedule, e.number ≠ n)
          ∧ (∀ m, 1 ≤ m → m < n → ∃ e ∈ s.cs.schedule, e.number = m)
          ∧ let e : Scheduled :=
              { number := n, edit := edit, urgent := urgentOf (p.drop 3), minute := wordAt p 0, due := false }
            let list := s.cs.schedule.filter (fun f => decide (f.minute ≤ e.minute)) ++ [e]
              ++ s.cs.schedule.filter (fun f => decide (e.minute < f.minute))
            exec (.schedule (frameOf p)) s = .next (taken (p.length + 2) (okReply [byteOf n])
              { s with cs := { s.cs with schedule := list } }))

/-- R55: UNSCHEDULE removes the entry of its number, DUE or not, and refuses BAD_FIELD (1) for number 0 and NO_SUCH
(7) for a number that no entry holds. -/
def Obligations.UnscheduleRemoves : Prop :=
  ∀ (n : Byte) (s : State), taking s →
    (n = 0 → exec (.unschedule (frameOf [n])) s = .next (taken 3 (refusedWith 1) s))
    ∧ (n ≠ 0 → (∃ e ∈ s.cs.schedule, e.number = n.toNat) →
      exec (.unschedule (frameOf [n])) s = .next (taken 3 (okReply [])
        { s with cs := { s.cs with schedule := s.cs.schedule.filter fun e => e.number != n.toNat } }))
    ∧ (n ≠ 0 → (∀ e ∈ s.cs.schedule, e.number ≠ n.toNat) →
      exec (.unschedule (frameOf [n])) s = .next (taken 3 (refusedWith 7) s))

/-- R56: what one pass over the scheduled list moves and leaves. The entries served move in list order while the queue
has room, each with the next sequence number; those that find it full stay in their places, DUE. That an entry which
was DUE already does not count as becoming DUE is the model's reading (log 26). -/
def Obligations.PassServesInOrder : Prop :=
  ∀ (served : Scheduled → Bool) (cs : ChangeStage), cs.nextSeq < 65536 →
    let chosen := cs.schedule.filter served
    let room := 64 - cs.queue.length
    let r := servePass served cs
    r.cs.queue.map (fun x => x.edit) = cs.queue.map (fun x => x.edit) ++ (chosen.take room).map (fun e => e.edit)
    ∧ r.cs.queue.map (fun x => x.seq) = cs.queue.map (fun x => x.seq)
      ++ (List.range (min room chosen.length)).map (fun i => (cs.nextSeq + i) % 65536)
    ∧ r.cs.nextSeq = (cs.nextSeq + min room chosen.length) % 65536
    ∧ r.cs.clock = cs.clock
    ∧ (chosen.length ≤ room → r.cs.schedule = cs.schedule.filter fun e => !served e)
    ∧ (∀ before after, cs.schedule = before ++ after → (before.filter served).length = room →
      r.cs.schedule = before.filter (fun e => !served e)
        ++ after.map (fun e => if served e then { e with due := true } else e))
    ∧ r.urgent = (chosen.take room).any (fun e => e.urgent)
    ∧ r.becameDue = (chosen.drop room).any (fun e => !e.due)

/-- R52, R56, R58: SET TIME sets the minute, the seconds to 0 and the clock SET. Only a forward one of a SET clock
serves the schedule: the DUE entries, then those with a minute after the old one and not after the new one. An entry that
becomes DUE sets SCHEDULE_DUE, and an urgent entry that moves makes one turn request. That an entry which was DUE and
finds the queue full again sets nothing is the model's reading (log 26). That the start of the turn keeps an auto-turn
expiry which waits as turn-wanted is the model's choice (log 5). -/
def Obligations.TimeSet : Prop :=
  ∀ (hi lo : Byte) (s : State), taking s →
    (1439 < 256 * hi.toNat + lo.toNat →
      exec (.setTime (frameOf [hi, lo])) s = .next (taken 4 (refusedWith 1) s))
    ∧ (256 * hi.toNat + lo.toNat ≤ 1439 →
      (s.cs.clock.set = false ∨ 256 * hi.toNat + lo.toNat ≤ s.cs.clock.minute) →
      exec (.setTime (frameOf [hi, lo])) s = .next (taken 4 (okReply [])
        { s with cs := { s.cs with clock := { set := true, minute := 256 * hi.toNat + lo.toNat, seconds := 0 } } }))
    ∧ (256 * hi.toNat + lo.toNat ≤ 1439 → s.cs.clock.set = true →
      s.cs.clock.minute < 256 * hi.toNat + lo.toNat →
      let first := servePass (fun e => e.due)
        { s.cs with clock := { set := true, minute := 256 * hi.toNat + lo.toNat, seconds := 0 } }
      let second := servePass
        (fun e => !e.due && (decide (s.cs.clock.minute < e.minute) && decide (e.minute ≤ 256 * hi.toNat + lo.toNat)))
        first.cs
      exec (.setTime (frameOf [hi, lo])) s = .next (taken 4 (okReply [])
        (requestIf (first.urgent || second.urgent)
          { s with cs := second.cs
                   ep := { s.ep with flags := s.ep.flags ||| (if first.becameDue || second.becameDue then 32 else 0) } })))

/-- R50, R59, R84, R114: a second event that makes no minute event counts the seconds of a SET clock, the auto-turn
countdown in SERVICE while STEADY, the age of each FRESH reading and the hold countdown of each READY entry. A reading
whose age reaches the stale limit becomes STALE and STALE_READING is set. Nothing else changes. The mark `expiring` of
the countdown is the model's own (log 5). -/
def Obligations.SecondsCounted : Prop :=
  ∀ s : State, s.resetHeld = false → (s.cs.clock.set = true → s.cs.clock.seconds < 59) →
    ∃ entries : List QueryEntry, holdsCounted s.qt.entries entries
      ∧ exec .secondEvent s = .next
        { s with
          cs := { s.cs with clock := { s.cs.clock with
            seconds := if s.cs.clock.set then s.cs.clock.seconds + 1 else s.cs.clock.seconds } }
          ec := if s.service = .service ∧ s.ec.turn = .steady ∧ 0 < s.ec.countdown then
              { s.ec with countdown := s.ec.countdown - 1, expiring := s.ec.expiring || s.ec.countdown == 1 }
            else s.ec
          lm := agedMonitor s.config.staleLimit s.lm
          ep := { s.ep with flags := s.ep.flags ||| staleFlag s.config.staleLimit s.lm }
          qt := { entries := entries } }

/-- R50, R51, R56, R59, R84, R114: the second event at which the seconds of a SET clock wrap. The minute's work comes
first: the minute advances, a rollover sets rollover-pending, the DUE entries and then those of the new minute are
served, and one turn request is made for a rollover or an urgent move. The auto-turn countdown is then counted under
the turn state that results, and the ages and hold countdowns as in any second. That the table's MINUTE_EVENT is the
whole of that second event, and the mark `expiring`, which a turn's start ends, are the model's choices (log 5). That an
entry which was DUE and finds the queue full again does not set SCHEDULE_DUE is its reading (log 26). -/
def Obligations.MinuteServed : Prop :=
  ∀ s : State, s.resetHeld = false → s.cs.clock.set = true → s.cs.clock.seconds = 59 → s.cs.clock.minute ≤ 1439 →
    exec .secondEvent s = exec .minuteEvent s
    ∧ ∃ t, exec .minuteEvent s = .next t ∧
      let m := (s.cs.clock.minute + 1) % 1440
      let first := servePass (fun e => e.due) { s.cs with clock := { set := true, minute := m, seconds := 0 } }
      let second := servePass (fun e => !e.due && e.minute == m) first.cs
      let asked := s.cs.clock.minute = 1439 ∨ first.urgent = true ∨ second.urgent = true
      t.cs = second.cs
      ∧ t.ep = { s.ep with flags := s.ep.flags ||| (if first.becameDue || second.becameDue then 32 else 0)
                                      ||| staleFlag s.config.staleLimit s.lm }
      ∧ t.lm = agedMonitor s.config.staleLimit s.lm ∧ holdsCounted s.qt.entries t.qt.entries
      ∧ t.ec.countdown = (if s.service = .service ∧ t.ec.turn = .steady then s.ec.countdown - 1 else s.ec.countdown)
      ∧ (t.ec.turn = s.ec.turn → t.ec.expiring = (s.ec.expiring
          || (decide (s.service = .service ∧ s.ec.turn = .steady) && s.ec.countdown == 1)))
      ∧ t.ec.rollover = (s.ec.rollover || s.cs.clock.minute == 1439)
      ∧ (asked → s.service ≠ .loading → s.ec.turn = .steady → s.eu.unit ≠ .building →
        t.ec.turn = .draining ∧ t.ec.wanted = (s.ec.wanted || s.ec.expiring) ∧ t.ec.expiring = false)
      ∧ (asked → s.service ≠ .loading → (s.ec.turn ≠ .steady ∨ s.eu.unit = .building) →
        t.ec.wanted = true ∧ t.ec.turn = s.ec.turn)
      ∧ ((¬asked ∨ s.service = .loading) → t.ec.turn = s.ec.turn ∧ t.ec.wanted = s.ec.wanted)
      ∧ t.ec.epoch = s.ec.epoch ∧ t.ec.report = s.ec.report
      ∧ t.ds = s.ds ∧ t.wg = s.wg ∧ t.config = s.config ∧ t.service = s.service ∧ t.re = s.re ∧ t.fe = s.fe
      ∧ t.eu = s.eu ∧ t.kl = s.kl

/-- R59, R72, R84, R114: what the expiries of a second do: a turn request, but never during a turn; a reading gone
STALE in the second event itself, with STALE_READING set and its weight kept; and a READY entry freed without a message.
That the turn request and the freeing are steps of their own after the second event, and that the table's STALE_EXPIRY
is the second event at which its segment's entry becomes STALE, are the model's choices (log 5). -/
def Obligations.ExpiriesTaken : Prop :=
  (∀ s : State, s.resetHeld = false → s.ec.expiring = true → s.service ≠ .loading →
    (s.ec.turn = .steady → s.eu.unit ≠ .building →
      exec .autoTurnExpiry s = .next { s with ec := { s.ec with expiring := false, turn := .draining } })
    ∧ (s.ec.turn = .steady → s.eu.unit = .building →
      exec .autoTurnExpiry s = .next { s with ec := { s.ec with expiring := false, wanted := true } })
    ∧ (s.ec.turn ≠ .steady → exec .autoTurnExpiry s = .next s))
    ∧ (∀ (n : Nat) (s : State), s.resetHeld = false →
      (∀ e, tableGet s.lm.entries n = some e → staleNow s.config.staleLimit e →
        exec (.staleExpiry n) s = exec .secondEvent s
        ∧ ∃ t, exec (.staleExpiry n) s = .next t
          ∧ tableGet t.lm.entries n = some { e with age := min 255 (e.age + 1), freshness := .stale }
          ∧ t.ep.flags.getLsbD 3 = true)
      ∧ ((∀ e, tableGet s.lm.entries n = some e → ¬staleNow s.config.staleLimit e) →
        exec (.staleExpiry n) s = .next s))
    ∧ ∀ (a : Addr) (tag : Tag) (e : QueryEntry) (s : State), s.resetHeld = false →
      findEntry s.qt a tag = some e → e.state = .ready 0 →
      ∃ t, exec (.holdExpiry a tag) s = .next t
        ∧ t.qt.entries = s.qt.entries.filter (fun f => !(f.addr == a && f.tag == tag))
        ∧ stationAt t a = { stationAt s a with queue := (stationAt s a).queue.filter fun x =>
            !(x.place == e.slot && x.content.isNone) }
        ∧ sameStationsBut a s t ∧ sameButQueries s t ∧ t.re = s.re ∧ t.fe = s.fe

/-! ### The Load Monitor -/

/-- R78, R79, R81 to R83, R85: what a reading for an in-use segment does to its entry, to the congested count and to
the alarm, with all else as it was; a reading for a free number changes nothing. LOAD is refused BAD_FIELD (1) for
more than 32 pairs or a segment number above 4095. Else its pairs are taken in order, and the reply counts those taken
and ignored. -/
def Obligations.ReadingsTaken : Prop :=
  (∀ (n q : Nat) (s : State),
    (tableGet s.lm.entries n = none → takePair n q s = s)
    ∧ ∀ e, tableGet s.lm.entries n = some e →
      let level := e.threshold - s.config.hysteresis
      let after : Bool := if e.congested then decide (level < q) else decide (e.threshold < q)
      let rises := after && !e.congested
      let falls := e.congested && !after
      let c := if rises then s.lm.congestedCount + 1 else if falls then s.lm.congestedCount - 1
        else s.lm.congestedCount
      let trips := rises && (!s.lm.tripped && (decide (0 < s.config.alarmLevel) && decide (s.config.alarmLevel ≤ c)))
      takePair n q s =
        { s with
          lm := { entries := tablePut s.lm.entries n
                    { reading := q, threshold := e.threshold, freshness := .fresh, age := 0, congested := after
                      weight := if after then 16 + min 48 ((q - level) / 4) else 16
                      episodes := if rises then min 255 (e.episodes + 1) else e.episodes }
                  congestedCount := c
                  tripped := if falls then s.lm.tripped && decide (s.config.alarmLevel ≤ c) else s.lm.tripped || trips }
          ep := { s.ep with flags := s.ep.flags ||| (if trips then 4 else 0) } })
    ∧ (∀ (pairs : List (Byte × Byte × Byte)) (s : State), taking s → 3 * pairs.length ≤ 250 →
    let p := (pairs.map fun x => [x.1, x.2.1, x.2.2]).flatten
    let read := pairs.map fun x => (256 * x.1.toNat + x.2.1.toNat, x.2.2.toNat)
    ((32 < pairs.length ∨ ∃ x ∈ read, 4095 < x.1) →
      exec (.load (frameOf p)) s = .next (taken (p.length + 2) (refusedWith 1) s))
    ∧ (pairs.length ≤ 32 → (∀ x ∈ read, x.1 ≤ 4095) →
      exec (.load (frameOf p)) s = .next (taken (p.length + 2)
        (okReply [byteOf (read.filter fun x => inUse s.lm.entries x.1).length,
          byteOf (read.filter fun x => !inUse s.lm.entries x.1).length])
        (read.foldl (fun t x => takePair x.1 x.2 t) s))))

/-- R86, R87: SET THRESHOLD changes the threshold alone, READ LOAD returns C and the in-use entries of its span and
clears their episodes only with the clear option. The checks refuse BAD_FIELD (1) and NO_SUCH (7). -/
def Obligations.ThresholdsAndLoadsRead : Prop :=
  ∀ (a b c : Byte) (s : State), taking s →
    let n := 256 * a.toNat + b.toNat
    ((4095 < n ∨ c = 0) → exec (.setThreshold (frameOf [a, b, c])) s = .next (taken 5 (refusedWith 1) s))
    ∧ (n ≤ 4095 → c ≠ 0 → tableGet s.lm.entries n = none →
      exec (.setThreshold (frameOf [a, b, c])) s = .next (taken 5 (refusedWith 7) s))
    ∧ (∀ e, n ≤ 4095 → c ≠ 0 → tableGet s.lm.entries n = some e →
      exec (.setThreshold (frameOf [a, b, c])) s = .next (taken 5 (okReply [])
        { s with lm := { s.lm with entries := tablePut s.lm.entries n { e with threshold := c.toNat } } }))
    ∧ (∀ d : Byte, (4095 < n ∨ c = 0 ∨ 30 < c.toNat ∨ 4096 < n + c.toNat) →
      exec (.readLoad (frameOf [a, b, c, d])) s = .next (taken 6 (refusedWith 1) s))
    ∧ ∀ d : Byte, c ≠ 0 → c.toNat ≤ 30 → n + c.toNat ≤ 4096 →
      let span := s.lm.entries.filter fun x => decide (n ≤ x.1) && decide (x.1 < n + c.toNat)
      let reply := okReply (be16 s.lm.congestedCount ++ (span.map fun x => encodeLoad x.1 x.2).flatten)
      (∀ x ∈ span, LoadBytes x.1 x.2 (encodeLoad x.1 x.2)) ∧
      (d.toNat % 2 = 0 → exec (.readLoad (frameOf [a, b, c, d])) s = .next (taken 6 reply s))
      ∧ (d.toNat % 2 = 1 → exec (.readLoad (frameOf [a, b, c, d])) s = .next (taken 6 reply
        { s with lm := { s.lm with entries := s.lm.entries.map fun x =>
          if n ≤ x.1 ∧ x.1 < n + c.toNat then (x.1, { x.2 with episodes := 0 }) else x } }))

/-! ### Reads, counts and station control -/

/-- R11, R22, R45, R177, R192, R198: READ LISTING, READ NODE and READ SEGMENT return the record of their number,
refused BAD_FIELD (1) out of range and NO_SUCH (7) when it is free. READ STATUS returns 69 bytes. READ STATION returns
a record and clears its overrun count only with the clear option. READ STATION CHANGES lists the changed stations in
address order and clears their flags. Nothing else changes, and each field stands at its bytes. The record of READ
LISTING and the addresses of READ STATION CHANGES are taken in the command's step; the open-now bit and the station
states go out as held when the reply is formed, a later step (log 14). The minute of an UNSET clock is 0xFFFF in READ
STATUS, the model's reading (log 27). -/
def Obligations.RecordsRead : Prop :=
  (∀ (hi lo : Byte) (s : State), taking s →
    let n := 256 * hi.toNat + lo.toNat
    let f := frameOf [hi, lo]
    ((n = 0 ∨ 1023 < n) → exec (.readListing f) s = .next (taken 4 (refusedWith 1) s))
    ∧ (1 ≤ n → n ≤ 1023 → tableGet s.ds.listings n = none →
      exec (.readListing f) s = .next (taken 4 (refusedWith 7) s))
    ∧ (∀ l, 1 ≤ n → n ≤ 1023 → tableGet s.ds.listings n = some l →
      exec (.readListing f) s = .next (takenForming 4 (.listing n l) s)
      ∧ exec .replyFormed (takenForming 4 (.listing n l) s) = .next { s with ep := { s.ep with
          miso := List.replicate 4 0, forming := none, discarded := false
          reply := { status := .ok, overrun := s.ep.discarded
                     data := encodeListing n l (openNow l s.cs.clock.set s.cs.clock.minute) } } })
    ∧ (2047 < n → exec (.readNode f) s = .next (taken 4 (refusedWith 1) s))
    ∧ (n ≤ 2047 → tableGet s.wg.nodes n = none → exec (.readNode f) s = .next (taken 4 (refusedWith 7) s))
    ∧ (∀ x, n ≤ 2047 → tableGet s.wg.nodes n = some x →
      exec (.readNode f) s = .next (taken 4 (okReply (encodeNode n x)) s))
    ∧ (4095 < n → exec (.readSegment f) s = .next (taken 4 (refusedWith 1) s))
    ∧ (n ≤ 4095 → tableGet s.wg.segments n = none → exec (.readSegment f) s = .next (taken 4 (refusedWith 7) s))
    ∧ ∀ g, n ≤ 4095 → tableGet s.wg.segments n = some g →
      exec (.readSegment f) s = .next (taken 4 (okReply (encodeSegment n g)) s))
    ∧ ((∀ s : State, taking s → s.config.labels.length = 8 → (encodeStatus s).length = 69
      ∧ exec (.readStatus (frameOf [])) s = .next (taken 2 (okReply (encodeStatus s)) s))
    ∧ (∀ (k n c : Byte) (s : State), taking s → (5 < k.toNat ∨ 15 < n.toNat) →
      exec (.readStation (frameOf [k, n, c])) s = .next (taken 5 (refusedWith 1) s))
    ∧ (∀ (a : Addr) (c : Byte) (s : State), taking s →
      let f := frameOf [byteOf (a.val / 16), byteOf (a.val % 16), c]
      let reply := okReply (encodeStation s.wg.homes[a] (stationAt s a))
      (c.toNat % 2 = 0 → exec (.readStation f) s = .next (taken 5 reply s))
      ∧ (c.toNat % 2 = 1 → exec (.readStation f) s = .next
        (taken 5 reply (putStation a { stationAt s a with overruns := 0 } s))))
    ∧ ∀ s : State, taking s → ∃ t,
      exec (.readStationChanges (frameOf [])) s = .next (takenForming 2
        (.changes ((List.finRange 96).filter fun a => (stationAt s a).changed)) t)
      ∧ (∀ a, stationAt t a = { stationAt s a with changed := false })
      ∧ sameRecords s t ∧ t.ec = s.ec ∧ t.qt = s.qt ∧ t.re = s.re ∧ t.fe = s.fe ∧ t.eu = s.eu ∧ t.ep = s.ep
      ∧ t.kl.trunks = s.kl.trunks)
    ∧ (∀ n l isOpen, ListingBytes n l isOpen (encodeListing n l isOpen)) ∧ (∀ n x, NodeBytes n x (encodeNode n x))
    ∧ (∀ n g, SegmentBytes n g (encodeSegment n g)) ∧ (∀ home st, StationBytes home st (encodeStation home st))
    ∧ ∀ s : State, s.config.labels.length = 8 → StatusBytes s (encodeStatus s)

/-- R20: READ COUNTS returns the counts of the in-use listings of its span and clears them only with the clear option;
CLEAR COUNTS clears every count. Nothing else changes. A first listing of 0 or above 1023 (R1) and a span that would
pass 1023 are refused BAD_FIELD (1); that a span of 0 or above 60 is refused so as well is the model's choice (log
35). -/
def Obligations.CountsReadAndCleared : Prop :=
  (∀ (a b c d : Byte) (s : State), taking s →
      let n := 256 * a.toNat + b.toNat
      ((n = 0 ∨ 1023 < n ∨ c = 0 ∨ 60 < c.toNat ∨ 1024 < n + c.toNat) →
        exec (.readCounts (frameOf [a, b, c, d])) s = .next (taken 6 (refusedWith 1) s))
      ∧ (1 ≤ n → c ≠ 0 → c.toNat ≤ 60 → n + c.toNat ≤ 1024 →
        let span := s.ds.listings.filter fun x => decide (n ≤ x.1) && decide (x.1 < n + c.toNat)
        let reply := okReply ((span.map fun x => be16 x.1 ++ be16 x.2.popularity).flatten)
        (d.toNat % 2 = 0 → exec (.readCounts (frameOf [a, b, c, d])) s = .next (taken 6 reply s))
        ∧ (d.toNat % 2 = 1 → exec (.readCounts (frameOf [a, b, c, d])) s = .next (taken 6 reply
          { s with ds := { s.ds with listings := s.ds.listings.map fun x =>
            if n ≤ x.1 ∧ x.1 < n + c.toNat then (x.1, { x.2 with popularity := 0 }) else x } }))))
    ∧ ∀ s : State, taking s → exec (.clearCounts (frameOf [])) s = .next (taken 2 (okReply [])
      { s with ds := { s.ds with listings := s.ds.listings.map fun x => (x.1, { x.2 with popularity := 0 }) } })

/-- R120, R175: SET SUBSCRIPTION, DISABLE STATION and RELEASE STATION at one station, whatever its state. A station in
service that is disabled leaves, with its entries. An address out of range or a group above 11 is refused BAD_FIELD
(1), a release of a station that is not DISABLED NO_SUCH (7). -/
def Obligations.StationsControlled : Prop :=
  (∀ (k n hi lo : Byte) (s : State), taking s → (5 < k.toNat ∨ 15 < n.toNat) →
    exec (.setSubscription (frameOf [k, n, hi, lo])) s = .next (taken 6 (refusedWith 1) s)
    ∧ exec (.disableStation (frameOf [k, n])) s = .next (taken 4 (refusedWith 1) s)
    ∧ exec (.releaseStation (frameOf [k, n])) s = .next (taken 4 (refusedWith 1) s))
  ∧ ∀ (a : Addr) (s : State), taking s →
    let k := byteOf (a.val / 16)
    let n := byteOf (a.val % 16)
    (∀ hi lo : Byte,
      (4096 ≤ 256 * hi.toNat + lo.toNat →
        exec (.setSubscription (frameOf [k, n, hi, lo])) s = .next (taken 6 (refusedWith 1) s))
      ∧ (256 * hi.toNat + lo.toNat < 4096 →
        exec (.setSubscription (frameOf [k, n, hi, lo])) s = .next (taken 6 (okReply [])
          (putStation a { stationAt s a with
            subscription := BitVec.ofNat 12 (256 * hi.toNat + lo.toNat)
            pendingMask := (stationAt s a).pendingMask &&& BitVec.ofNat 12 (256 * hi.toNat + lo.toNat) } s))))
    ∧ ((stationAt s a).state = .disabled →
      exec (.disableStation (frameOf [k, n])) s = .next (taken 4 (okReply []) s))
    ∧ ((stationAt s a).state ≠ .disabled → ∃ t,
      exec (.disableStation (frameOf [k, n])) s = .next (taken 4 (okReply []) t)
      ∧ stationAt t a = (if inService (stationAt s a) then
          { stationAt s a with state := .disabled, changed := true, queue := [], pendingMask := 0, misses := 0 }
        else { stationAt s a with state := .disabled, changed := true, misses := 0, attempts := 0, countdown := 0 })
      ∧ t.qt.entries = (if inService (stationAt s a) then afterLeaving (fun b => b == a) s.qt.entries else s.qt.entries)
      ∧ (∀ x, (trunkAt t (trunkOf a)).exchange = some x → x.station = a → x.void = true)
      ∧ t.ep = { s.ep with flags := s.ep.flags ||| 2 }
      ∧ sameStationsBut a s t ∧ sameTrunksBut (trunkOf a) s t ∧ sameRecords s t ∧ t.ec = s.ec ∧ t.re = s.re
      ∧ t.fe = s.fe ∧ t.eu = s.eu)
    ∧ ((stationAt s a).state ≠ .disabled →
      exec (.releaseStation (frameOf [k, n])) s = .next (taken 4 (refusedWith 7) s))
    ∧ ((stationAt s a).state = .disabled →
      exec (.releaseStation (frameOf [k, n])) s = .next (taken 4 (okReply [])
        { putStation a { stationAt s a with state := .absent, changed := true } s with
          ep := { s.ep with flags := s.ep.flags ||| 2 } }))

/-- R120, R176: RESET TRUNK takes every station of the trunk but the DISABLED ones to ABSENT, its ENABLED and DORMANT
ones leaving with their entries, and begins frame 0 with the four pointers at 15. No other trunk and no station of
another trunk changes. That the frame begins in the step of the command is the model's choice (log 25). -/
def Obligations.TrunkReset : Prop :=
  (∀ (k : Byte) (s : State), taking s → 5 < k.toNat →
      exec (.resetTrunk (frameOf [k])) s = .next (taken 3 (refusedWith 1) s))
    ∧ ∀ (k : TrunkNo) (s : State), taking s → ∃ t,
      exec (.resetTrunk (frameOf [byteOf k.val])) s = .next (taken 3 (okReply []) t)
      ∧ (∀ a, trunkOf a = k → (stationAt s a).state ≠ .disabled → stationAt t a =
          { stationAt s a with state := .absent, misses := 0, attempts := 0, countdown := 0, spacing := 0, queue := []
                               pendingMask := 0, raisedSince := false
                               changed := (stationAt s a).changed || (stationAt s a).state != .absent })
      ∧ (∀ a, trunkOf a = k → (stationAt s a).state = .disabled → stationAt t a = stationAt s a)
      ∧ (∀ a, trunkOf a ≠ k → stationAt t a = stationAt s a)
      ∧ (trunkAt t k).frame = 0 ∧ (trunkAt t k).pollPtr = 15 ∧ (trunkAt t k).noticePtr = 15
      ∧ (trunkAt t k).resetPtr = 15 ∧ (trunkAt t k).probePtr = 15 ∧ (trunkAt t k).exchange = none
      ∧ (∃ b, (trunkAt t k).sent = .beacon b ∧ b.frame = 0)
      ∧ (t.ep.flags = s.ep.flags ||| 2 ∨ t.ep.flags = s.ep.flags)
      ∧ (t.ep.flags = s.ep.flags ||| 2 ↔ (s.ep.flags &&& 2 = 2
          ∨ ∃ a, trunkOf a = k ∧ (stationAt s a).state ≠ .disabled ∧ (stationAt s a).state ≠ .absent))
      ∧ t.qt.entries = afterLeaving (fun a => decide (trunkOf a = k) && inService (stationAt s a)) s.qt.entries
      ∧ (∀ e ∈ s.qt.entries, ¬(trunkOf e.addr = k ∧ inService (stationAt s e.addr) = true) → e ∈ t.qt.entries)
      ∧ (∀ e ∈ t.qt.entries, trunkOf e.addr = k → inService (stationAt s e.addr) = true →
          e.state = .halting .stationLeft)
      ∧ sameTrunksBut k s t ∧ sameRecords s t ∧ t.ec = s.ec ∧ t.re = s.re ∧ t.fe = s.fe ∧ t.eu = s.eu

/-! ### Evacuation, attention and service -/

/-- R121, R172, R181: EVAC START replies OK; it changes nothing while the latch is set, and else does by service state
what an evacuation entry does. In SERVICE the ROUTE entries that are QUEUED or READY are freed, the WORKING ones halt
with EVACUATION, the HALTING ones keep their cause, and no other entry changes. Each station is told REFUSED
EVACUATING in the slots of its freed entries, where R121 places it; that its entries come in arrival order is the
model's choice (log 17). That a build due begins in the same step is read from R182 (log 4). -/
def Obligations.EvacuationEntered : Prop :=
  (∀ s : State, taking s → s.eu.latch = true → exec (.evacStart (frameOf [])) s = .next (taken 2 (okReply []) s))
    ∧ (∀ s : State, taking s → s.eu.latch = false → s.service = .loading →
      exec (.evacStart (frameOf [])) s = .next (taken 2 (okReply [])
        { s with eu := { s.eu with latch := true }, ep := { s.ep with flags := s.ep.flags ||| 16 } }))
    ∧ (∀ s : State, taking s → s.eu.latch = false → s.service = .starting →
      exec (.evacStart (frameOf [])) s = .next (taken 2 (okReply []) (mapStations (fun _ => raised (groupBit 11))
        { s with eu := { s.eu with latch := true }, ep := { s.ep with flags := s.ep.flags ||| 16 } })))
    ∧ ∀ s : State, taking s → TableInv s → s.eu.latch = false → s.eu.unit = .off → s.service = .service →
      ∃ t, exec (.evacStart (frameOf [])) s = .next (taken 2 (okReply []) t)
        ∧ t.eu.latch = true ∧ t.ep.flags = s.ep.flags ||| 16 ∧ t.ep.mask = s.ep.mask
        ∧ t.qt.entries = afterEvacuation s.qt.entries
        ∧ (∀ a, stationAt t a = (s.qt.entries.filter fun e => isRoute e && e.addr == a).foldl toldEvacuating
          (raised (groupBit 11) (stationAt s a)))
        ∧ (∀ e ∈ t.qt.entries, isRoute e = true → ∃ cause, e.state = .halting cause)
        ∧ t.qt.entries.filter (fun e => !isRoute e) = s.qt.entries.filter (fun e => !isRoute e)
        ∧ (∀ e ∈ s.qt.entries, isRoute e = true → e.state = .working →
          { e with state := .halting .evacuation } ∈ t.qt.entries)
        ∧ t.eu.unit = (if s.ec.turn = .steady ∧ s.re.work = none then .building else .off)
        ∧ (∀ a, (stationAt t a).pendingMask = (if inService (stationAt s a) then
            (stationAt s a).pendingMask ||| (groupBit 11 &&& (stationAt s a).subscription)
          else (stationAt s a).pendingMask))
        ∧ sameRecords s t ∧ t.ec = s.ec ∧ t.re = s.re ∧ t.fe = s.fe ∧ t.kl.trunks = s.kl.trunks

/-- R122, R186: EVAC CLEAR is refused EVAC_LINE_ACTIVE (10) while the line is ASSERTED, and changes nothing while the
latch is clear. Else it clears the latch, turns the unit OFF, sets EVAC_CHANGE, frees the READY evacuation answers
without a message and raises group 11 in STARTING and SERVICE. Every other entry is kept, in order and as it was, but
for a grant (R110, R111): a turn that waited for a build starts at once and nothing is granted, else the arbiters
grant. That the start of that turn answers an auto-turn expiry which waits too (log 5), and that a tree abandoned in its
build and the APPROXIMATE flag stay as they stand (log 37), are the model's choices. -/
def Obligations.EvacuationCleared : Prop :=
  (∀ s : State, taking s → s.eu.asserted = true →
      exec (.evacClear (frameOf [])) s = .next (taken 2 (refusedWith 10) s))
    ∧ (∀ s : State, taking s → s.eu.asserted = false → s.eu.latch = false →
      exec (.evacClear (frameOf [])) s = .next (taken 2 (okReply []) s))
    ∧ ∀ s : State, taking s → s.eu.asserted = false → s.eu.latch = true →
      ∃ t, exec (.evacClear (frameOf [])) s = .next (taken 2 (okReply []) t)
        ∧ t.eu = { s.eu with latch := false, unit := .off } ∧ t.ep = { s.ep with flags := s.ep.flags ||| 16 }
        ∧ (∀ e ∈ t.qt.entries, evacuationAnswer e = false)
        ∧ t.qt.entries.length = (s.qt.entries.filter fun e => !evacuationAnswer e).length
        ∧ (s.eu.unit = .building → s.ec.wanted = true →
          t.qt.entries = s.qt.entries.filter fun e => !evacuationAnswer e)
        ∧ (TableInv s → (s.eu.unit ≠ .building ∨ s.ec.wanted = false) → Granted
          { s with qt := { entries := s.qt.entries.filter fun e => !evacuationAnswer e }, eu := t.eu, ep := t.ep
                   kl := t.kl } t)
        ∧ ((s.ec.turn ≠ .steady ∨ s.re.work ≠ none ∨ oldestQueued isRoute s.qt = none) → t.re = s.re)
        ∧ ((s.ec.turn ≠ .steady ∨ s.fe.work ≠ none ∨ oldestQueued (fun e => !isRoute e) s.qt = none) → t.fe = s.fe)
        ∧ (s.eu.unit = .building → s.ec.wanted = true →
          t.ec = { s.ec with wanted := false, turn := .draining, expiring := false } ∧ t.re = s.re ∧ t.fe = s.fe)
        ∧ ((s.eu.unit ≠ .building ∨ s.ec.wanted = false) → t.ec = s.ec)
        ∧ (∀ a, (stationAt t a).queue = (stationAt s a).queue ∧ (stationAt t a).state = (stationAt s a).state)
        ∧ (s.service = .loading → t.kl = s.kl)
        ∧ (s.service ≠ .loading → ∀ a, stationAt t a = raised (groupBit 11) (stationAt s a))
        ∧ sameRecords s t ∧ t.kl.trunks = s.kl.trunks

/-- R191: ACK ATTENTION clears the flags it names, SET ATTENTION MASK writes the mask, and a set that names a bit
beyond the six is refused BAD_FIELD (1). ATTN is low exactly while a flag is set and enabled in a part that is not
held reset. -/
def Obligations.AttentionServed : Prop :=
  (∀ (b : Byte) (s : State), taking s → 64 ≤ b.toNat →
      exec (.ackAttention (frameOf [b])) s = .next (taken 3 (refusedWith 1) s)
      ∧ exec (.setAttentionMask (frameOf [b])) s = .next (taken 3 (refusedWith 1) s))
    ∧ (∀ (f : AttnFlags) (s : State), taking s →
      exec (.ackAttention (frameOf [f.zeroExtend 8])) s = .next
        (taken 3 (okReply []) { s with ep := { s.ep with flags := s.ep.flags &&& ~~~f } })
      ∧ exec (.setAttentionMask (frameOf [f.zeroExtend 8])) s = .next
        (taken 3 (okReply []) { s with ep := { s.ep with mask := f } }))
    ∧ ∀ s : State, attnPinHigh s = false ↔
      s.resetHeld = false ∧ ∃ i : Fin 6, s.ep.flags.getLsbD i.val = true ∧ s.ep.mask.getLsbD i.val = true

/-- R58, R193, R195: TURN is refused NOT_IN_SERVICE (9) in LOADING, and else starts a turn in STEADY outside a build
or sets turn-wanted. START SERVICE enters STARTING with a turn request and is refused NOT_LOADING (8) outside LOADING.
RESTART SERVICE is refused NOT_IN_SERVICE in LOADING; else it empties the query table, stops the engines, a build and
a turn, takes the stations to ABSENT but for the DISABLED ones, resets the load entries, and starts the STARTING turn.
That an expiry which waits counts as made before the request that starts a turn, and what RESTART SERVICE does to the
marks of the second event, are the model's choices (log 5, log 20). -/
def Obligations.ServiceCommandsTaken : Prop :=
  (∀ s : State, taking s →
    (s.service = .loading → exec (.turn (frameOf [])) s = .next (taken 2 (refusedWith 9) s))
    ∧ (s.service ≠ .loading → s.ec.turn = .steady → s.eu.unit ≠ .building →
      exec (.turn (frameOf [])) s = .next (taken 2 (okReply [])
        { s with ec := { s.ec with turn := .draining, wanted := s.ec.wanted || s.ec.expiring, expiring := false } }))
    ∧ (s.service ≠ .loading → (s.ec.turn ≠ .steady ∨ s.eu.unit = .building) →
      exec (.turn (frameOf [])) s = .next (taken 2 (okReply []) { s with ec := { s.ec with wanted := true } })))
    ∧ ((∀ s : State, taking s → s.service ≠ .loading →
      exec (.startService (frameOf [])) s = .next (taken 2 (refusedWith 8) s))
    ∧ (∀ s : State, taking s → s.service = .loading → s.ec.turn = .steady → s.eu.unit ≠ .building →
      exec (.startService (frameOf [])) s = .next (taken 2 (okReply [])
        { s with service := .starting
                 ec := { s.ec with turn := .draining, wanted := s.ec.wanted || s.ec.expiring, expiring := false } }))
    ∧ (∀ s : State, taking s → s.service = .loading →
      exec (.restartService (frameOf [])) s = .next (taken 2 (refusedWith 9) s))
    ∧ ∀ s : State, taking s → s.service ≠ .loading →
      ∃ t, exec (.restartService (frameOf [])) s = .next (taken 2 (okReply []) t)
        ∧ t.service = .starting ∧ t.qt.entries = [] ∧ t.re = { s.re with work := none } ∧ t.fe.work = none
        ∧ t.eu = { s.eu with unit := .off }
        ∧ t.ec.turn = .draining ∧ t.ec.wanted = false ∧ t.ec.epoch = s.ec.epoch ∧ t.ec.rollover = s.ec.rollover
        ∧ t.ec.countdown = s.ec.countdown ∧ t.ec.report = s.ec.report
        ∧ t.lm.congestedCount = 0 ∧ t.lm.tripped = false
        ∧ (∀ n, tableGet t.lm.entries n = (tableGet s.lm.entries n).map fun e =>
          { reading := 0, threshold := e.threshold, freshness := .none, age := 0, congested := false, weight := 16,
            episodes := 0 })
        ∧ (∀ a, (stationAt s a).state = .disabled → stationAt t a = stationAt s a)
        ∧ (∀ a, (stationAt s a).state ≠ .disabled → stationAt t a =
          { stationAt s a with state := .absent, misses := 0, attempts := 0, countdown := 0, spacing := 0, queue := []
                               pendingMask := 0
                               changed := (stationAt s a).changed || (stationAt s a).state != .absent })
        ∧ ((∃ a, (stationAt s a).state ≠ .disabled ∧ (stationAt s a).state ≠ .absent) →
          t.ep.flags = s.ep.flags ||| 2)
        ∧ ((∀ a, (stationAt s a).state = .disabled ∨ (stationAt s a).state = .absent) → t.ep.flags = s.ep.flags)
        ∧ (∀ k, (trunkAt t k).frame = (trunkAt s k).frame ∧ (trunkAt t k).elapsed = (trunkAt s k).elapsed
          ∧ (trunkAt t k).pollPtr = (trunkAt s k).pollPtr ∧ (trunkAt t k).noticePtr = (trunkAt s k).noticePtr
          ∧ (trunkAt t k).resetPtr = (trunkAt s k).resetPtr ∧ (trunkAt t k).probePtr = (trunkAt s k).probePtr)
        ∧ t.ds = s.ds ∧ t.wg = s.wg ∧ t.config = s.config ∧ t.cs = s.cs ∧ t.ep.mask = s.ep.mask)

/-- R179: a sample of the EMERGENCY line counts up to the third in a row that differs, which recognises the change:
ASSERTED as an evacuation entry, RELEASED with EVAC_CHANGE while the latch is set. That a third differing sample also
makes the recognition, which the table lists as rows of their own, is the model's choice (log 6). -/
def Obligations.LineFiltered : Prop :=
  (∀ s : State, s.resetHeld = false →
      exec (.emergencySample s.eu.asserted) s = .next { s with eu := { s.eu with differing := 0 } })
    ∧ (∀ s : State, s.resetHeld = false → s.eu.differing < 2 →
      exec (.emergencySample (!s.eu.asserted)) s = .next { s with eu := { s.eu with differing := s.eu.differing + 1 } })
    ∧ (∀ s : State, s.resetHeld = false → s.eu.asserted = false → s.eu.differing = 2 →
      exec .emergencyAsserted s = .next (evacuationEntry { s with eu := { s.eu with asserted := true, differing := 0 } })
      ∧ exec (.emergencySample true) s = exec .emergencyAsserted s)
    ∧ ∀ s : State, s.resetHeld = false → s.eu.asserted = true → s.eu.differing = 2 →
      exec .emergencyReleased s = .next
        { s with eu := { s.eu with asserted := false, differing := 0 }
                 ep := { s.ep with flags := s.ep.flags ||| (if s.eu.latch then 16 else 0) } }
      ∧ exec (.emergencySample false) s = exec .emergencyReleased s

/-! ### The steps of a turn -/

/-- R60 to R62: DRAINING ends when both engines and the tree builder are idle. APPLYING begins with N fixed and
pending rollover work done: CLOSED_TODAY listings return to OPEN, counts are halved unless popularity is frozen, and
group 9 is raised for a listing returned. That this is a step of its own is the model's choice (log 3). -/
def Obligations.DrainingEnds : Prop :=
  ∀ s : State, s.resetHeld = false → s.ec.turn = .draining → s.re.work = none → s.fe.work = none →
    s.eu.unit ≠ .building → ∃ t, exec .drainComplete s = .next t
      ∧ t.ec.turn = .applying ∧ t.ec.rollover = false
      ∧ t.ec.work.remaining = s.cs.queue.length ∧ t.ec.work.applied = 0 ∧ t.ec.work.rejected = 0
      ∧ t.ec.work.first = none
      ∧ (s.ec.rollover = false → t.ds = s.ds ∧ t.ec.work.groups = 0)
      ∧ (s.ec.rollover = true →
        (∀ n, tableGet t.ds.listings n = (tableGet s.ds.listings n).map fun l =>
          { l with status := if l.status = .closedToday then .opened else l.status
                   popularity := if s.config.frozen then l.popularity else l.popularity / 2 })
        ∧ t.ds.nameIndex = s.ds.nameIndex
        ∧ t.ec.work.groups = (if ∃ x ∈ s.ds.listings, x.2.status = .closedToday then groupBit 9 else 0))
      ∧ t.ec.epoch = s.ec.epoch ∧ t.ec.wanted = s.ec.wanted ∧ t.ec.report = s.ec.report
      ∧ t.ec.countdown = s.ec.countdown
      ∧ t.wg = s.wg ∧ t.lm = s.lm ∧ t.cs = s.cs ∧ t.config = s.config ∧ t.service = s.service ∧ t.qt = s.qt
      ∧ t.re = s.re ∧ t.fe = s.fe ∧ t.eu = s.eu ∧ t.kl = s.kl ∧ t.ep = s.ep

/-- R61, R71: the head of the queue leaves it, tested against the records as they stand, and is applied whole with its
groups gathered, or rejected whole with the first rejection kept. -/
def Obligations.StagedEditTaken : Prop :=
  ∀ (s : State) (x : Staged) (rest : List Staged), s.resetHeld = false → s.ec.turn = .applying →
    0 < s.ec.work.remaining → s.cs.queue = x :: rest →
    let u : State := { s with cs := { s.cs with queue := rest } }
    (∀ reason, editTest x.edit s = some reason →
      exec .applyStagedEdit s = .next { u with ec := { s.ec with work := { s.ec.work with
        remaining := s.ec.work.remaining - 1, rejected := s.ec.work.rejected + 1
        first := if s.ec.work.first.isSome then s.ec.work.first else some (x.seq, reason) } } })
    ∧ (editTest x.edit s = none →
      ∃ t, exec .applyStagedEdit s = .next t
        ∧ t.ds = (applyEdit x.edit s).1.ds ∧ t.wg = (applyEdit x.edit s).1.wg ∧ t.lm = (applyEdit x.edit s).1.lm
        ∧ t.config = (applyEdit x.edit s).1.config ∧ t.cs = u.cs
        ∧ t.ec = { s.ec with work := { s.ec.work with
            remaining := s.ec.work.remaining - 1, applied := s.ec.work.applied + 1
            groups := s.ec.work.groups ||| (applyEdit x.edit s).2 } }
        ∧ t.service = s.service ∧ t.qt = s.qt ∧ t.re = s.re ∧ t.fe = s.fe ∧ t.eu = s.eu ∧ t.kl = s.kl ∧ t.ep = s.ep)

/-- R63, R64, R65: when an edit is rejected, in the order of the tests; a SET HOME that names no node and a SET CONFIG
are never rejected. How an edit that passes is applied is stated by `ListingEditsApplied`, `GraphEditsApplied` and
`ConfigCarriedAndApplied`. -/
def Obligations.EditsTestedInOrder : Prop :=
  ∀ s : State,
    (∀ (n : Nat) (f : ListingForm), testedInOrder
      [(∃ m ∈ f.entrances, tableGet s.wg.nodes m = none, .noSuchNode),
       (∃ m ∈ f.entrances, ∃ x, tableGet s.wg.nodes m = some x ∧ x.kind ≠ .entrance, .notEntrance),
       (f.status = .relocated ∧ ∀ m, f.forward = some m → tableGet s.ds.listings m = none, .noSuchListing)]
      (editTest (.putListing n f) s))
    ∧ (∀ (n : Nat) (status : ListingStatus) (forward : Option Nat), testedInOrder
      [(tableGet s.ds.listings n = none, .noSuchListing),
       (status = .relocated ∧ ∀ m, forward = some m → tableGet s.ds.listings m = none, .noSuchListing)]
      (editTest (.setListingStatus n status forward) s))
    ∧ (∀ n : Nat, testedInOrder [(tableGet s.ds.listings n = none, .noSuchListing)] (editTest (.retireListing n) s))
    ∧ (∀ (n : Nat) (f : NodeForm), tableGet s.wg.nodes n = none → editTest (.putNode n f) s = none)
    ∧ (∀ (n : Nat) (f : NodeForm) (x : Node), tableGet s.wg.nodes n = some x → testedInOrder
      [(x.floor ≠ f.floor ∧ x.adjacency ≠ [], .nodeInUse),
       (x.kind = .entrance ∧ f.kind ≠ .entrance ∧ ∃ l ∈ s.ds.listings, n ∈ l.2.entrances, .nodeInUse),
       (x.kind = .kiosk ∧ f.kind ≠ .kiosk ∧ ∃ a : Addr, s.wg.homes[a] = some n, .nodeInUse),
       (x.kind = .exit .usable ∧ ∀ state, f.kind ≠ .exit state, .nodeInUse)]
      (editTest (.putNode n f) s))
    ∧ (∀ n : Nat, testedInOrder
      [(tableGet s.wg.nodes n = none, .noSuchNode),
       ((∃ x, tableGet s.wg.nodes n = some x ∧ x.adjacency ≠ []) ∨ (∃ l ∈ s.ds.listings, n ∈ l.2.entrances)
          ∨ ∃ a : Addr, s.wg.homes[a] = some n, .nodeInUse)]
      (editTest (.removeNode n) s))
    ∧ (∀ (n : Nat) (f : SegmentForm), testedInOrder
      [(tableGet s.wg.nodes f.endA = none ∨ tableGet s.wg.nodes f.endB = none, .noSuchNode),
       ((f.kind = .walk ∨ f.kind = .ramp) ↔ floorOf s.wg f.endA ≠ floorOf s.wg f.endB, .floorMismatch),
       (∃ m, (m = f.endA ∨ m = f.endB) ∧ 6 ≤ degree s.wg m
          ∧ ∀ g, tableGet s.wg.segments n = some g → g.endA ≠ m ∧ g.endB ≠ m, .degreeFull)]
      (editTest (.putSegment n f) s))
    ∧ (∀ (n : Nat) (state : SegmentState), testedInOrder [(tableGet s.wg.segments n = none, .noSuchSegment)]
      (editTest (.setSegmentState n state) s))
    ∧ (∀ n : Nat, testedInOrder [(tableGet s.wg.segments n = none, .noSuchSegment)] (editTest (.removeSegment n) s))
    ∧ (∀ (n : Nat) (state : ExitState), testedInOrder
      [(tableGet s.wg.nodes n = none, .noSuchNode),
       (∀ x old, tableGet s.wg.nodes n = some x → x.kind ≠ .exit old, .notExit)]
      (editTest (.setExit n state) s))
    ∧ (∀ (a : Addr) (n : Nat), testedInOrder
      [(tableGet s.wg.nodes n = none, .noSuchNode),
       (∀ x, tableGet s.wg.nodes n = some x → x.kind ≠ .kiosk, .notKiosk)]
      (editTest (.setHome a (some n)) s))
    ∧ (∀ a : Addr, editTest (.setHome a none) s = none)
    ∧ ∀ c : Configuration, editTest (.setConfig c) s = none

/-- R8, R16, R56, R61, R66, R67: with the N edits taken every sampled weight becomes the live weight, the DUE entries are
served, with SCHEDULE_DUE set when one becomes DUE in that pass, and VALIDATING begins. Then a RELOCATED listing whose
forward names a free slot becomes CLOSED and loses it, raising group 9; the name index is kept. That an entry which was
DUE and finds the queue full again sets no SCHEDULE_DUE is the model's reading (log 26). -/
def Obligations.WeightsSampledForwardsRepaired : Prop :=
  (∀ s : State, s.resetHeld = false → s.ec.turn = .applying → s.ec.work.remaining = 0 →
      ∃ t, exec .weightSampling s = .next t
        ∧ t.ec.turn = .validating ∧ t.ec.work.validation = .repair
        ∧ t.ec.work.groups = s.ec.work.groups
        ∧ (∀ n, tableGet t.wg.segments n = (tableGet s.wg.segments n).map fun g =>
          { g with weight := ((tableGet s.lm.entries n).map fun e => e.weight).getD 16 })
        ∧ t.wg.nodes = s.wg.nodes ∧ t.wg.homes = s.wg.homes
        ∧ t.cs = (servePass (fun e => e.due) s.cs).cs
        ∧ t.ec.wanted = (s.ec.wanted || ((servePass (fun e => e.due) s.cs).urgent && s.service != .loading))
        ∧ t.ep = { s.ep with flags := s.ep.flags ||| if (servePass (fun e => e.due) s.cs).becameDue then 32 else 0 }
        ∧ t.ds = s.ds ∧ t.lm = s.lm ∧ t.config = s.config ∧ t.service = s.service ∧ t.qt = s.qt ∧ t.re = s.re
        ∧ t.fe = s.fe ∧ t.eu = s.eu ∧ t.kl = s.kl)
    ∧ ∀ s : State, s.resetHeld = false → s.ec.turn = .validating → s.ec.work.validation = .repair →
      ∃ t, exec .relocationRepair s = .next t
        ∧ (∀ n l, tableGet s.ds.listings n = some l →
          ((∃ f, l.status = .relocated ∧ l.forward = some f ∧ tableGet s.ds.listings f = none) →
            tableGet t.ds.listings n = some { l with status := .closed, forward := none })
          ∧ (¬(∃ f, l.status = .relocated ∧ l.forward = some f ∧ tableGet s.ds.listings f = none) →
            tableGet t.ds.listings n = some l))
        ∧ (∀ n, tableGet s.ds.listings n = none → tableGet t.ds.listings n = none) ∧ t.ds.nameIndex = s.ds.nameIndex
        ∧ t.ec.work.groups = (if t.ds.listings = s.ds.listings then s.ec.work.groups
            else s.ec.work.groups ||| groupBit 9)
        ∧ t.ec.work.validation = .floods ∧ t.ec.turn = .validating
        ∧ t.wg = s.wg ∧ t.cs = s.cs ∧ t.lm = s.lm ∧ t.config = s.config ∧ t.service = s.service ∧ t.qt = s.qt
        ∧ t.re = s.re ∧ t.fe = s.fe ∧ t.eu = s.eu ∧ t.kl = s.kl ∧ t.ep = s.ep

/-- R16, R21, R68: a listing's reach flags say whether some entrance can be reached from a station's home by permitted
moves, in the STANDARD and in the STEP_FREE profile. A change raises group 8, and the listings without each flag are
counted. The name index is kept. -/
def Obligations.ReachIsReachability : Prop :=
  ∀ s : State, s.resetHeld = false → s.ec.turn = .validating → s.ec.work.validation = .floods →
    (∀ (a : Addr) (n : Nat), s.wg.homes[a] = some n → n < 2048) →
    (∀ x ∈ s.wg.segments, x.2.endA < 2048 ∧ x.2.endB < 2048) → TableSorted s.wg.segments →
    ∃ t, exec .reachabilityFloods s = .next t
      ∧ (∀ n l, tableGet s.ds.listings n = some l → ∃ l', tableGet t.ds.listings n = some l'
        ∧ (l'.reachStandard = true ↔ ∃ m ∈ l.entrances, Reached s.wg .standard m)
        ∧ (l'.reachStepFree = true ↔ ∃ m ∈ l.entrances, Reached s.wg .stepFree m)
        ∧ l'.toListingForm = l.toListingForm ∧ l'.popularity = l.popularity)
      ∧ (∀ n, tableGet s.ds.listings n = none → tableGet t.ds.listings n = none) ∧ t.ds.nameIndex = s.ds.nameIndex
      ∧ t.ec.work.groups = (if t.ds.listings = s.ds.listings then s.ec.work.groups
          else s.ec.work.groups ||| groupBit 8)
      ∧ t.ec.work.unreachableStandard = (t.ds.listings.filter fun x => !x.2.reachStandard).length
      ∧ t.ec.work.unreachableStepFree = (t.ds.listings.filter fun x => !x.2.reachStepFree).length
      ∧ t.ec.work.validation = .completion ∧ t.ec.turn = .validating
      ∧ t.wg = s.wg ∧ t.cs = s.cs ∧ t.lm = s.lm ∧ t.config = s.config ∧ t.service = s.service ∧ t.qt = s.qt
      ∧ t.re = s.re ∧ t.fe = s.fe ∧ t.eu = s.eu ∧ t.kl = s.kl ∧ t.ep = s.ep

/-- R70 to R72, R110, R172, R183: a turn completes with the epoch advanced, its report written, its groups raised at every
station, the countdown reloaded and TURN_DONE set; STARTING passes to SERVICE, and rollover-pending is kept. While the
latch is set the tree is begun and a wanted turn stays wanted, and the find arbiter grants while the route arbiter does
not. With the latch clear a wanted turn starts and nothing is granted, and else both arbiters grant. -/
def Obligations.TurnCompletes : Prop :=
  ∀ s : State, s.resetHeld = false → s.ec.turn = .validating → s.ec.work.validation = .completion →
    ∃ t, exec .turnComplete s = .next t
      ∧ t.ec.epoch = (s.ec.epoch + 1) % 65536 ∧ t.ec.countdown = s.config.autoTurn ∧ t.ec.rollover = s.ec.rollover
      ∧ t.ec.report = { epoch := (s.ec.epoch + 1) % 65536, applied := s.ec.work.applied, rejected := s.ec.work.rejected
                        first := s.ec.work.first, groups := s.ec.work.groups
                        unreachableStandard := s.ec.work.unreachableStandard
                        unreachableStepFree := s.ec.work.unreachableStepFree }
      ∧ t.service = (if s.service = .starting then .service else s.service)
      ∧ t.ep = { s.ep with flags := s.ep.flags ||| 1 }
      ∧ (∀ a, stationAt t a = raised s.ec.work.groups (stationAt s a))
      ∧ (s.eu.latch = true → t.ec.turn = .steady ∧ t.ec.wanted = s.ec.wanted
        ∧ (∃ x, t.eu = { s.eu with unit := .building, tree := x } ∧ TreeBegun s.wg x)
        ∧ t.re = s.re)
      ∧ (s.eu.latch = false → s.ec.wanted = true →
        t.ec.turn = .draining ∧ t.ec.wanted = false ∧ t.qt = s.qt ∧ t.re = s.re ∧ t.fe = s.fe)
      ∧ (s.eu.latch = false → s.ec.wanted = false → t.ec.turn = .steady ∧ t.ec.wanted = false)
      ∧ (s.eu.latch = false → t.eu = s.eu)
      ∧ (TableInv s → (s.eu.latch = true ∨ s.ec.wanted = false) →
        Granted { t with qt := s.qt, re := s.re, fe := s.fe } t)
      ∧ t.ds = s.ds ∧ t.wg = s.wg ∧ t.lm = s.lm ∧ t.cs = s.cs ∧ t.config = s.config ∧ t.kl.trunks = s.kl.trunks

/-! ### The kiosk link -/

/-- R163, R166, R173: a rotation finds the first station after its pointer that passes the test, in address order
round from 15 to 00, the pointer's own station last, and none only when no station passes. -/
def Obligations.RotationFindsFirst : Prop :=
  ∀ (after : StationNo) (test : StationNo → Bool),
    (firstAfter after test = none ↔ ∀ n, test n = false)
    ∧ ∀ n, firstAfter after test = some n → test n = true
      ∧ ∀ m, test m = true → (n.val + 15 - after.val) % 16 ≤ (m.val + 15 - after.val) % 16

/-- R36, R160, R162, R168, R173: a frame start. The frame number rises, the settings and the BEACON are those held at
that moment, and at each station of the trunk the countdown of a RESETTING station and the notice spacing fall. R168 has
the attempt of a station fail at the frame start at which its countdown reaches 0. That its state and its attempts still
stand after this step, the failure being the later step RESET_COUNTDOWN_EXPIRY, is the model's choice (log 7). That a frame
starts only with no reply awaited is the model's choice too (log 9). -/
def Obligations.FrameBegins : Prop :=
  ∀ (k : TrunkNo) (s : State), s.resetHeld = false → (trunkAt s k).exchange = none →
    ∃ t, exec (.frameStart k) s = .next t
      ∧ (let n := ((trunkAt s k).frame + 1) % 4096
        trunkAt t k = { trunkAt s k with
          frame := n, elapsed := 640, part := .notices, noticed := [], exchange := none
          settings := { frameLength := s.config.frameLength, noticeShare := s.config.noticeShare
                        bitRate := s.config.bitRate, faultLimit := s.config.faultLimit }
          sent := .beacon { frame := n, epoch := s.ec.epoch
                            minute := if s.cs.clock.set then some s.cs.clock.minute else none
                            evacuation := s.eu.latch, service := s.service, bitRate := s.config.bitRate, floor := n % 8
                            label := s.config.labels.getD (n % 8) (0, 0) } })
      ∧ (∀ a, trunkOf a = k → stationAt t a = { stationAt s a with
          countdown := if (stationAt s a).state = .resetting then (stationAt s a).countdown - 1
            else (stationAt s a).countdown
          spacing := (stationAt s a).spacing - 1 })
      ∧ (∀ a, trunkOf a ≠ k → stationAt t a = stationAt s a)
      ∧ sameTrunksBut k s t ∧ sameRecords s t ∧ t.ec = s.ec ∧ t.qt = s.qt ∧ t.re = s.re ∧ t.fe = s.fe ∧ t.eu = s.eu
      ∧ t.ep = s.ep

/-- R173: a NOTICE goes to the first eligible station after the notice pointer that has had none in the frame. It
carries the pending mask, sets the spacing to 4 and raised-since to false, and changes nothing else but the trunk. The
time counted is the model's (log 9). -/
def Obligations.NoticeSent : Prop :=
  ∀ (k : TrunkNo) (n : StationNo) (s : State), s.resetHeld = false →
    firstAfter (trunkAt s k).noticePtr (fun m =>
      let st := stationAt s (addrOf k m)
      decide (st.state = .enabled ∧ st.pendingMask ≠ 0 ∧ (st.spacing = 0 ∨ st.raisedSince = true)
        ∧ m ∉ (trunkAt s k).noticed)) = some n →
    (trunkAt s k).part = .notices → (trunkAt s k).exchange = none →
    (trunkAt s k).elapsed + 80 * bitMicros (trunkAt s k).settings.bitRate ≤ noticeEnd (trunkAt s k).settings →
    ∃ t, exec (.notice k) s = .next t
      ∧ trunkAt t k = { trunkAt s k with
          elapsed := (trunkAt s k).elapsed + 80 * bitMicros (trunkAt s k).settings.bitRate
          noticed := n :: (trunkAt s k).noticed, noticePtr := n
          sent := .notice n (stationAt s (addrOf k n)).pendingMask }
      ∧ stationAt t (addrOf k n) = { stationAt s (addrOf k n) with spacing := 4, raisedSince := false }
      ∧ sameStationsBut (addrOf k n) s t ∧ sameTrunksBut k s t ∧ sameRecords s t ∧ t.ec = s.ec ∧ t.qt = s.qt
      ∧ t.re = s.re ∧ t.fe = s.fe ∧ t.eu = s.eu ∧ t.ep = s.ep

/-- R163 to R165, R197: a POLL goes to the first pollable station after the poll pointer. It carries the message in
flight again, else the earliest filled slot, which becomes in flight, with the delivery number and the slots free. The
trunk's driver is enabled to send it and disabled while the trunk listens, the model's reading (log 36). The time
counted is the model's (log 9, log 10). -/
def Obligations.PollSent : Prop :=
  ∀ (k : TrunkNo) (n : StationNo) (s : State), s.resetHeld = false → QueuesInv s →
    firstAfter (trunkAt s k).pollPtr (fun m =>
      let st := stationAt s (addrOf k m)
      decide (st.state = .enabled ∨ st.state = .resetting ∨ (st.state = .dormant ∧ (trunkAt s k).frame % 16 = 0)))
      = some n →
    pollFits s k n = true →
    ∃ t, exec (.poll k) s = .next t
      ∧ (let st := stationAt s (addrOf k n)
        let carried := (st.queue.find? fun x => x.inFlight).or (st.queue.find? fun x => x.content.isSome)
        (trunkAt t k).pollPtr = n
        ∧ (trunkAt t k).exchange = some { station := addrOf k n, probe := false, void := false }
        ∧ driverEnabled s k true = true ∧ driverEnabled t k false = false
        ∧ (∃ free, (trunkAt t k).sent = .poll n st.delivery free (carried.bind fun x => x.content)
          ∧ free = 4 - st.queue.length + if carried.isSome then 1 else 0)
        ∧ (carried = none → stationAt t (addrOf k n) = st)
        ∧ (∀ c, carried = some c → stationAt t (addrOf k n) = { st with
            queue := st.queue.map fun x => if x.place = c.place then { x with inFlight := true } else x }))
      ∧ (trunkAt t k).frame = (trunkAt s k).frame ∧ (trunkAt t k).settings = (trunkAt s k).settings
      ∧ (trunkAt t k).noticePtr = (trunkAt s k).noticePtr ∧ (trunkAt t k).resetPtr = (trunkAt s k).resetPtr
      ∧ (trunkAt t k).probePtr = (trunkAt s k).probePtr
      ∧ sameStationsBut (addrOf k n) s t ∧ sameTrunksBut k s t ∧ sameRecords s t ∧ t.ec = s.ec ∧ t.qt = s.qt
      ∧ t.re = s.re ∧ t.fe = s.fe ∧ t.eu = s.eu ∧ t.ep = s.ep

/-- R166, R168: the management exchange. A STATION RESET makes the first ATTACHED station after the reset pointer
RESETTING with countdown 4. With none ATTACHED a PROBE goes to the first ABSENT or FAULTED station after the probe
pointer and leaves the stations as they were. When it may come is the model's reading (log 10). -/
def Obligations.ManagementExchanges : Prop :=
  (∀ (k : TrunkNo) (n : StationNo) (s : State), s.resetHeld = false →
      firstAfter (trunkAt s k).resetPtr (fun m => decide ((stationAt s (addrOf k m)).state = .attached)) = some n →
      managementTurn s k = true → fitsFrame (trunkAt s k) 60 = true →
      ∃ t, exec (.stationReset k) s = .next t
        ∧ stationAt t (addrOf k n) =
          { stationAt s (addrOf k n) with state := .resetting, countdown := 4, changed := true }
        ∧ (trunkAt t k).resetPtr = n ∧ (trunkAt t k).sent = .stationReset n ∧ (trunkAt t k).exchange = none
        ∧ (trunkAt t k).part = .finished ∧ (trunkAt t k).frame = (trunkAt s k).frame
        ∧ (trunkAt t k).probePtr = (trunkAt s k).probePtr ∧ (trunkAt t k).pollPtr = (trunkAt s k).pollPtr
        ∧ t.ep = { s.ep with flags := s.ep.flags ||| 2 }
        ∧ sameStationsBut (addrOf k n) s t ∧ sameTrunksBut k s t ∧ sameRecords s t ∧ t.ec = s.ec ∧ t.qt = s.qt
        ∧ t.re = s.re ∧ t.fe = s.fe ∧ t.eu = s.eu)
    ∧ ∀ (k : TrunkNo) (n : StationNo) (s : State), s.resetHeld = false →
      (∀ m, (stationAt s (addrOf k m)).state ≠ .attached) →
      firstAfter (trunkAt s k).probePtr (fun m => decide ((stationAt s (addrOf k m)).state = .absent
        ∨ (stationAt s (addrOf k m)).state = .faulted)) = some n →
      managementTurn s k = true → fitsFrame (trunkAt s k) probeExchangeBits = true →
      ∃ t, exec (.probe k) s = .next t
        ∧ (trunkAt t k).probePtr = n ∧ (trunkAt t k).sent = .probe n
        ∧ (trunkAt t k).exchange = some { station := addrOf k n, probe := true, void := false }
        ∧ (trunkAt t k).part = .finished ∧ (trunkAt t k).frame = (trunkAt s k).frame
        ∧ (trunkAt t k).resetPtr = (trunkAt s k).resetPtr ∧ (trunkAt t k).pollPtr = (trunkAt s k).pollPtr
        ∧ (∀ a, stationAt t a = stationAt s a)
        ∧ sameTrunksBut k s t ∧ sameRecords s t ∧ t.ec = s.ec ∧ t.qt = s.qt ∧ t.re = s.re ∧ t.fe = s.fe ∧ t.eu = s.eu
        ∧ t.ep = s.ep

/-- R120, R166, R168, R169: the passages that bring a station into service: an answered PROBE makes it ATTACHED, READY
within the countdown makes a RESETTING station ENABLED with its counts cleared and its whole subscription pending,
READY of a station in service makes it ATTACHED again with a leaving, and a countdown at 0 is a failed attempt, the
third one faulting it. That the failed attempt is a step of its own after the frame start is the model's choice (log
7). -/
def Obligations.StationsComeIntoService : Prop :=
  (∀ (k : TrunkNo) (d : Nat) (r : StationReply) (x : Exchange) (s : State), s.resetHeld = false → d ≤ 64 →
      replyFits r = true → (trunkAt s k).exchange = some x → trunkOf x.station = k → x.void = false → x.probe = true →
      ((stationAt s x.station).state = .absent ∨ (stationAt s x.station).state = .faulted) →
      ∃ t, exec (.probeReply k d r) s = .next t
        ∧ stationAt t x.station = { stationAt s x.station with state := .attached, changed := true }
        ∧ (trunkAt t k).exchange = none ∧ t.ep = { s.ep with flags := s.ep.flags ||| 2 }
        ∧ sameStationsBut x.station s t ∧ sameTrunksBut k s t ∧ sameRecords s t ∧ t.qt = s.qt)
    ∧ (∀ (k : TrunkNo) (d : Nat) (x : Exchange) (s : State), s.resetHeld = false → d ≤ 64 →
      (trunkAt s k).exchange = some x → trunkOf x.station = k → x.void = false → x.probe = false →
      (stationAt s x.station).state = .resetting → 0 < (stationAt s x.station).countdown →
      ∃ t, exec (.readyReply k d) s = .next t
        ∧ stationAt t x.station = { stationAt s x.station with
            state := .enabled, changed := true, misses := 0, attempts := 0, delivery := false, spacing := 0
            raisedSince := false, pendingMask := (stationAt s x.station).subscription }
        ∧ (trunkAt t k).exchange = none ∧ t.ep = { s.ep with flags := s.ep.flags ||| 2 }
        ∧ sameStationsBut x.station s t ∧ sameTrunksBut k s t ∧ sameRecords s t ∧ t.qt = s.qt)
    ∧ (∀ (k : TrunkNo) (d : Nat) (x : Exchange) (s : State), s.resetHeld = false → d ≤ 64 →
      (trunkAt s k).exchange = some x → trunkOf x.station = k → x.void = false → x.probe = false →
      inService (stationAt s x.station) = true →
      ∃ t, exec (.readyReply k d) s = .next t
        ∧ stationAt t x.station = { stationAt s x.station with
            state := .attached, changed := true, queue := [], pendingMask := 0, misses := 0 }
        ∧ t.qt.entries = afterLeaving (fun b => b == x.station) s.qt.entries
        ∧ (trunkAt t k).exchange = none ∧ t.ep = { s.ep with flags := s.ep.flags ||| 2 }
        ∧ sameStationsBut x.station s t ∧ sameTrunksBut k s t ∧ sameRecords s t)
    ∧ ∀ (a : Addr) (s : State), s.resetHeld = false → (stationAt s a).state = .resetting →
      (stationAt s a).countdown = 0 →
      ∃ t, exec (.resetCountdownExpiry a) s = .next t
        ∧ stationAt t a = (if (stationAt s a).attempts < 2 then { stationAt s a with
            state := .attached, changed := true, attempts := (stationAt s a).attempts + 1 }
          else { stationAt s a with state := .faulted, changed := true, attempts := 0 })
        ∧ t.ep = { s.ep with flags := s.ep.flags ||| 2 }
        ∧ sameStationsBut a s t ∧ sameRecords s t ∧ t.qt = s.qt ∧ t.kl.trunks = s.kl.trunks

/-- R120, R164 to R166, R170: a good EMPTY from a station in service acknowledges the message in flight, which leaves
the queue with a change of the delivery number, and sets the miss count to 0. A bad reply, or none, is a miss, which
faults the station at the frame's fault limit. A RESETTING station's miss is not counted, and its EMPTY and REQUEST
are ignored. A miss on a PROBE leaves the station as it was, and so does any reply to an exchange that is void. -/
def Obligations.RepliesAcknowledgeOrMiss : Prop :=
  (∀ (k : TrunkNo) (x : Exchange) (s : State), s.resetHeld = false → (trunkAt s k).exchange = some x →
    trunkOf x.station = k → x.void = false → x.probe = false →
    let st := stationAt s x.station
    (inService st = true →
      (∀ d, d ≤ 64 → ∃ t, exec (.emptyReply k d) s = .next t
        ∧ stationAt t x.station = { st with
            queue := st.queue.filter fun y => !y.inFlight, misses := 0
            delivery := if ∃ y ∈ st.queue, y.inFlight = true then !st.delivery else st.delivery }
        ∧ (trunkAt t k).exchange = none
        ∧ sameStationsBut x.station s t ∧ sameTrunksBut k s t ∧ sameRecords s t ∧ t.qt = s.qt ∧ t.ep = s.ep)
      ∧ (∀ c, (c = .replyWindowClose k
            ∨ ∃ d m, d ≤ 64 ∧ c = .badReply k d m ∧ goodReply (stationOf x.station) m = none) →
        ∃ t, exec c s = .next t ∧ (trunkAt t k).exchange = none
          ∧ (st.misses + 1 < (trunkAt s k).settings.faultLimit →
            stationAt t x.station = { st with misses := st.misses + 1 } ∧ t.qt = s.qt ∧ t.ep = s.ep)
          ∧ ((trunkAt s k).settings.faultLimit ≤ st.misses + 1 →
            stationAt t x.station =
              { st with state := .faulted, changed := true, queue := [], pendingMask := 0, misses := 0 }
            ∧ t.qt.entries = afterLeaving (fun b => b == x.station) s.qt.entries
            ∧ t.ep = { s.ep with flags := s.ep.flags ||| 2 })
          ∧ sameStationsBut x.station s t ∧ sameTrunksBut k s t ∧ sameRecords s t))
    ∧ (st.state = .resetting → ∃ t, exec (.replyWindowClose k) s = .next t ∧ (trunkAt t k).exchange = none
      ∧ (∀ a, stationAt t a = stationAt s a) ∧ t.qt = s.qt ∧ t.ep = s.ep))
  ∧ ∀ (k : TrunkNo) (c : Instr) (x : Exchange) (s : State), s.resetHeld = false → (trunkAt s k).exchange = some x →
    RepliesOn k c →
    (x.void = true
      ∨ (x.void = false ∧ x.probe = true
        ∧ (c = .replyWindowClose k ∨ ∃ d m, c = .badReply k d m ∧ goodReply (stationOf x.station) m = none))
      ∨ (x.void = false ∧ x.probe = false ∧ (stationAt s x.station).state = .resetting
        ∧ (∀ d, c ≠ .readyReply k d) ∧ (∀ d r, c ≠ .probeReply k d r)
        ∧ ∀ d m, c = .badReply k d m → goodReply (stationOf x.station) m ≠ some .ready)) →
    ∃ t, exec c s = .next t ∧ (trunkAt t k).exchange = none
      ∧ (∀ a, stationAt t a = stationAt s a) ∧ sameTrunksBut k s t ∧ sameRecords s t
      ∧ t.ec = s.ec ∧ t.qt = s.qt ∧ t.re = s.re ∧ t.fe = s.fe ∧ t.eu = s.eu ∧ t.ep = s.ep

/-- R165, R198: a reply made as its content says is read back from its bytes, for every station and every content that
fits its kind. -/
def Obligations.RepliesRoundTrip : Prop :=
  ∀ (n : StationNo) (r : StationReply), replyFits r = true → goodReply n (encodeReply n r) = some r

/-- R49, R65, R83, R196, R198: a SET CONFIG payload made from a configuration within its ranges carries that
configuration. Applied, it replaces the configuration and decides the alarm state by the new alarm level, with no flag
set. That it raises group 10 even when it changes nothing is the model's choice (log 33). -/
def Obligations.ConfigCarriedAndApplied : Prop :=
  (∀ (c : Configuration) (flags : Byte), configOk c = true → editFits .setConfig (flags :: encodeConfig c) = true
      ∧ editOf .setConfig (flags :: encodeConfig c) = some (.setConfig c))
    ∧ ∀ (c : Configuration) (s : State),
      let trips := decide (0 < c.alarmLevel) && decide (c.alarmLevel ≤ s.lm.congestedCount)
      applyEdit (.setConfig c) s = ({ s with config := c, lm := { s.lm with tripped := trips } }, groupBit 10)

/-! ### Requests -/

/-- R106, R107, R109, R110, R167, R171, R198: a FIND, BROWSE or ROUTE of a station in service. Its parameters carry a
query exactly when each stands at its bytes and meets its condition, and it fits its kind by its length. One that finds
four slots in use is an overrun. Else the first check that fails is told in the reserved slot and makes no entry; a request
that passes all of them stands QUEUED at the tail of the table with its slot reserved, and the arbiters grant at once. A
DORMANT station becomes ENABLED, which sets STATION_CHANGE. -/
def Obligations.RequestsAdmittedOrRefused : Prop :=
  (∀ p : List Byte,
    (∀ q : Query, (findQueryOf p = some q ↔ QueryCarried .find p q)
      ∧ (browseQueryOf p = some q ↔ QueryCarried .browse p q) ∧ (routeQueryOf p = some q ↔ QueryCarried .route p q))
    ∧ (paramsFit .find p = true ↔ p.length = 4 + byteAt p 3 ∧ p.length ≤ 249)
    ∧ (paramsFit .browse p = true ↔ p.length = 3) ∧ (paramsFit .route p = true ↔ p.length = 6))
  ∧ ∀ (c : Instr) (query : Option Query) (k : TrunkNo) (d : Nat) (tag : Tag) (p : List Byte) (x : Exchange) (s : State),
    ((c = .findRequest k d tag p ∧ query = findQueryOf p ∧ paramsFit .find p = true)
      ∨ (c = .browseRequest k d tag p ∧ query = browseQueryOf p ∧ paramsFit .browse p = true)
      ∨ (c = .routeRequest k d tag p ∧ query = routeQueryOf p ∧ paramsFit .route p = true)) →
    answering k d x s → QueuesInv s → inService (stationAt s x.station) = true →
    let a := x.station
    let st := awake (stationAt s a)
    let flags := changeFlag .enabled (stationAt s a)
    (4 ≤ st.queue.length → ∃ t, exec c s = .next t ∧ sameButRequest k a flags s t
      ∧ stationAt t a = { st with overruns := min 255 (st.overruns + 1) } ∧ t.qt = s.qt ∧ t.re = s.re ∧ t.fe = s.fe)
    ∧ (st.queue.length < 4 → ∃ t, exec c s = .next t ∧ sameButRequest k a flags s t
      ∧ (∀ reason, firstRefusal s a tag query reason →
        stationAt t a = appendSlot (some (tag, .refused reason)) st ∧ t.qt = s.qt ∧ t.re = s.re ∧ t.fe = s.fe)
      ∧ ∀ q, query = some q → s.service = .service → (∀ reason, ¬firstRefusal s a tag query reason) →
        let e : QueryEntry := { addr := a, tag := tag, query := q, state := .queued, epoch := none, answer := none
                                slot := st.nextPlace, cancelSlot := none }
        stationAt t a = appendSlot none st
        ∧ t.qt.entries.length = s.qt.entries.length + 1
        ∧ (∃ f, t.qt.entries[s.qt.entries.length]? = some f ∧ f.addr = a ∧ f.tag = tag ∧ f.query = q
          ∧ f.answer = none ∧ f.slot = st.nextPlace ∧ (f.state = .queued ∨ f.state = .working))
        ∧ (TableInv s →
          Granted { s with qt := { entries := s.qt.entries ++ [e] }, kl := t.kl, ep := t.ep } t))

/-- R115, R117, R119, R145, R157, R171: a PAGE of a station in service writes the page, or REFUSED with NO_SUCH_TAG,
NOT_READY or BAD_PAGE, into its slot, and a served one reloads the hold countdown. Page n holds the steps or results
8n - 7 to 8n, or to the last. A CANCEL acts by the state of the entry: QUEUED and READY entries are freed with
CANCELLED, a WORKING one halts with its message to come, and any other is told NO_SUCH_TAG. Outside SERVICE both are
refused NOT_IN_SERVICE, and either is an overrun when four slots are in use. A DORMANT station becomes ENABLED, which
sets STATION_CHANGE (R167). -/
def Obligations.AnswersPagedAndCancelled : Prop :=
  (∀ (k : TrunkNo) (d : Nat) (tag : Tag) (n : Byte) (c : Instr) (x : Exchange) (s : State), answering k d x s →
    QueuesInv s → inService (stationAt s x.station) = true →
    (c = .pageRequest k d tag [n] ∨ c = .cancelRequest k d tag []) →
    let a := x.station
    let st := awake (stationAt s a)
    (4 ≤ st.queue.length → ∃ t, exec c s = .next t ∧ sameButRequest k a (changeFlag .enabled (stationAt s a)) s t
      ∧ stationAt t a = { st with overruns := min 255 (st.overruns + 1) } ∧ t.qt = s.qt ∧ t.re = s.re ∧ t.fe = s.fe)
    ∧ (st.queue.length < 4 → s.service ≠ .service → ∃ t, exec c s = .next t
      ∧ sameButRequest k a (changeFlag .enabled (stationAt s a)) s t
      ∧ stationAt t a = appendSlot (some (tag, .refused .notInService)) st ∧ t.qt = s.qt ∧ t.re = s.re
      ∧ t.fe = s.fe))
  ∧ (∀ (n : Nat) (h : RouteHeader) (steps : List RouteStep) (f : FindHeader) (results : List FindResult), 1 ≤ n →
    (∃ l, pageOf n (.route h steps) = .routePage n (8 * n - 7) l ∧ l.length = min 8 (steps.length - (8 * n - 8))
      ∧ ∀ i, i < 8 → l[i]? = steps[8 * n - 8 + i]?)
    ∧ ∃ l, pageOf n (.find f results) = .findPage n l ∧ l.length = min 8 (results.length - (8 * n - 8))
      ∧ ∀ i, i < 8 → l[i]? = results[8 * n - 8 + i]?)
  ∧
  (∀ (k : TrunkNo) (d : Nat) (tag : Tag) (n : Byte) (x : Exchange) (s : State), answering k d x s → QueuesInv s →
    inService (stationAt s x.station) = true → s.service = .service →
    (acknowledge (stationAt s x.station)).queue.length < 4 →
    let a := x.station
    let slotOf := fun m => appendSlot (some (tag, m)) (awake (stationAt s a))
    ∃ t, exec (.pageRequest k d tag [n]) s = .next t ∧ sameButRequest k a (changeFlag .enabled (stationAt s a)) s t
      ∧ t.re = s.re ∧ t.fe = s.fe
      ∧ (findEntry s.qt a tag = none → stationAt t a = slotOf (.refused .noSuchTag) ∧ t.qt = s.qt)
      ∧ (∀ e, findEntry s.qt a tag = some e → (∀ hold, e.state ≠ .ready hold) →
        stationAt t a = slotOf (.refused .notReady) ∧ t.qt = s.qt)
      ∧ ∀ e hold answer, findEntry s.qt a tag = some e → e.state = .ready hold → e.answer = some answer →
        ((n = 0 ∨ pageCountOf answer < n.toNat) → stationAt t a = slotOf (.refused .badPage) ∧ t.qt = s.qt)
        ∧ (n ≠ 0 → n.toNat ≤ pageCountOf answer →
          stationAt t a = slotOf (pageOf n.toNat answer)
          ∧ t.qt.entries = s.qt.entries.map fun f =>
            if f.addr = a ∧ f.tag = tag then { f with state := .ready s.config.holdTime } else f))
    ∧ (∀ (k : TrunkNo) (d : Nat) (tag : Tag) (x : Exchange) (s : State), answering k d x s → QueuesInv s →
    inService (stationAt s x.station) = true → s.service = .service →
    (acknowledge (stationAt s x.station)).queue.length < 4 →
    let a := x.station
    let st := awake (stationAt s a)
    ∃ t, exec (.cancelRequest k d tag []) s = .next t ∧ sameButRequest k a (changeFlag .enabled (stationAt s a)) s t
      ∧ t.re = s.re ∧ t.fe = s.fe
      ∧ ((findEntry s.qt a tag = none ∨ ∃ e cause, findEntry s.qt a tag = some e ∧ e.state = .halting cause) →
        stationAt t a = appendSlot (some (tag, .refused .noSuchTag)) st ∧ t.qt = s.qt)
      ∧ (∀ e, findEntry s.qt a tag = some e → e.state = .working →
        stationAt t a = appendSlot none st
        ∧ t.qt.entries = s.qt.entries.map fun f => if f.addr = a ∧ f.tag = tag then
            { f with state := .halting .cancel, cancelSlot := some st.nextPlace } else f)
      ∧ ∀ e, findEntry s.qt a tag = some e → (e.state = .queued ∨ ∃ hold, e.state = .ready hold) →
        stationAt t a = appendSlot (some (tag, .cancelled)) (releaseSlot e.slot st)
        ∧ t.qt.entries = s.qt.entries.filter fun f => !(f.addr == a && f.tag == tag))

/-- R116: RELEASE frees a READY entry with that tag, and has no effect on any other. It reserves no slot and produces
no message. A freed entry's own slot is given up if it were still a reservation, as R119 has it for every freeing. A
DORMANT station becomes ENABLED, which sets STATION_CHANGE (R167). -/
def Obligations.ReadyEntryReleased : Prop :=
  ∀ (k : TrunkNo) (d : Nat) (tag : Tag) (x : Exchange) (s : State), answering k d x s →
    inService (stationAt s x.station) = true →
    let a := x.station
    let st := awake (stationAt s a)
    ∃ t, exec (.releaseRequest k d tag []) s = .next t ∧ sameButRequest k a (changeFlag .enabled (stationAt s a)) s t
      ∧ t.re = s.re ∧ t.fe = s.fe
      ∧ ((∀ e hold, findEntry s.qt a tag = some e → e.state ≠ .ready hold) → stationAt t a = st ∧ t.qt = s.qt)
      ∧ ∀ e hold, findEntry s.qt a tag = some e → e.state = .ready hold →
        stationAt t a = { st with queue := st.queue.filter fun y => !(y.place == e.slot && y.content.isNone) }
        ∧ t.qt.entries = s.qt.entries.filter fun f => !(f.addr == a && f.tag == tag)

/-- R169, R174: SEEN removes the groups it names from the pending mask, after making a DORMANT station ENABLED; SLEEP
makes an ENABLED station DORMANT and WAKE a DORMANT one ENABLED, and each leaves the other state as it was. A change of
state sets STATION_CHANGE (R167). None reserves a slot. -/
def Obligations.SeenSleepWake : Prop :=
  ∀ (k : TrunkNo) (d : Nat) (tag : Tag) (x : Exchange) (s : State), answering k d x s →
    inService (stationAt s x.station) = true →
    let a := x.station
    let st := acknowledge (stationAt s a)
    let moved := fun new : StationState => if st.state = new then st else { st with state := new, changed := true }
    (∀ hi lo : Byte, ∃ t, exec (.seenRequest k d tag [hi, lo]) s = .next t
      ∧ sameButRequest k a (changeFlag .enabled (stationAt s a)) s t
      ∧ stationAt t a = { moved .enabled with
          pendingMask := st.pendingMask &&& ~~~BitVec.ofNat 12 (256 * hi.toNat + lo.toNat) }
      ∧ t.qt = s.qt ∧ t.re = s.re ∧ t.fe = s.fe)
    ∧ (∃ t, exec (.sleepRequest k d tag []) s = .next t ∧ sameButRequest k a (changeFlag .dormant (stationAt s a)) s t
      ∧ stationAt t a = moved .dormant ∧ t.qt = s.qt ∧ t.re = s.re ∧ t.fe = s.fe)
    ∧ ∃ t, exec (.wakeRequest k d tag []) s = .next t ∧ sameButRequest k a (changeFlag .enabled (stationAt s a)) s t
      ∧ stationAt t a = moved .enabled ∧ t.qt = s.qt ∧ t.re = s.re ∧ t.fe = s.fe

/-! ### Costs, times and turns -/

/-- R37, R90 to R93, R97 to R99, R101, R102, R136 to R139: which moves a profile permits; the cost of a segment, which
lies within 1 to 23541; walk seconds rounded up at the pace of the profile; vertical seconds, with one lift wait for each
run of lifts, and the saturated total; the minutes of a total, with LONG for more than 5940 seconds; the turn class by its
tests in order, which changes side when the path is walked the other way; the legs of a path; and the untruncated steps of
a path with their nodes, actions, floors and distances. -/
def Obligations.CostsTimesAndTurns : Prop :=
  (∀ (profile : Profile) (g : Segment) (p q : Nat), permitted profile g p q = true ↔
      ((g.endA = p ∧ g.endB = q) ∨ (g.endA = q ∧ g.endB = p)) ∧ g.state = .opened
      ∧ ¬(profile = .stepFree ∧ (g.kind = .stair ∨ g.kind = .escalator)) ∧ ¬(profile = .evacuation ∧ g.kind = .lift)
      ∧ (g.direction = .both ∨ (g.direction = .aToB ∧ g.endA = p) ∨ (g.direction = .bToA ∧ g.endB = p)
        ∨ (profile = .evacuation ∧ g.kind = .escalator)))
    ∧ (∀ (c : Configuration) (profile : Profile) (wg : Graph) (g : Segment),
      let d := ((floorOf wg g.endA : Int) - (floorOf wg g.endB : Int)).natAbs
      segmentCost c profile wg g = g.length * g.weight / 16
        + (match g.kind with
          | .walk | .ramp => 0
          | .stair => c.penaltyStair * d
          | .escalator => (if profile = .evacuation then c.penaltyStair else c.penaltyEscalator) * d
          | .lift => c.penaltyLift + 16 * d)
      ∧ (configOk c = true → 1 ≤ g.length → g.length ≤ 4095 → 16 ≤ g.weight → g.weight ≤ 64 →
        floorOf wg g.endA ≤ 7 → floorOf wg g.endB ≤ 7 →
        1 ≤ segmentCost c profile wg g ∧ segmentCost c profile wg g ≤ 23541))
    ∧ (∀ c : Configuration, paceOf c .standard = c.paceStandard ∧ paceOf c .stepFree = c.paceStepFree
      ∧ paceOf c .evacuation = c.paceEvacuation)
    ∧ (∀ (c : Configuration) (profile : Profile) (length : Nat), 0 < paceOf c profile →
      length * 10 ≤ paceOf c profile * walkSeconds c profile length
      ∧ (walkSeconds c profile length = 0 ∨ paceOf c profile * (walkSeconds c profile length - 1) < length * 10))
    ∧ (∀ (c : Configuration) (profile : Profile) (legs : List Leg),
      verticalSeconds c profile none legs =
          (legs.map fun l => match l.kind with
            | .walk | .ramp => 0
            | .stair => c.stairClimb * l.span
            | .escalator => (if profile = .evacuation then c.stairClimb else c.escalatorRide) * l.span
            | .lift => c.liftTravel * l.span).sum
          + c.liftWait * ((List.range legs.length).filter fun i =>
              kindAt legs i == some .lift && (i == 0 || kindAt legs (i - 1) != some .lift)).length
      ∧ totalSeconds c profile legs =
        min 65535 (walkSeconds c profile ((legs.filter fun l => l.kind == .walk || l.kind == .ramp).map
            fun l => l.length).sum
          + verticalSeconds c profile none legs))
    ∧ (∀ (wg : Graph) (first : Nat) (segments : List Nat), (∀ m ∈ segments, tableGet wg.segments m ≠ none) →
      let legs := legsOf wg first segments
      legs.length = segments.length
      ∧ ∀ i m g, segments[i]? = some m → tableGet wg.segments m = some g → ∃ l, legs[i]? = some l ∧ l.kind = g.kind
        ∧ l.length = g.length
        ∧ l.span = ((floorOf wg g.endA : Int) - (floorOf wg g.endB : Int)).natAbs
        ∧ l.node = (if g.endA = nodeAt first legs i then g.endB else g.endA))
    ∧ (∀ (wg : Graph) (first : Nat) (legs : List Leg), allSteps wg first legs = stepsOf wg first legs)
    ∧ (∀ n : Nat, minutesOf n = (min 99 ((n + 59) / 60), decide (5940 < n)))
    ∧ ∀ px py nx ny qx qy : Int,
      let zero := (nx - px = 0 ∧ ny - py = 0) ∨ (qx - nx = 0 ∧ qy - ny = 0)
      let cross := (nx - px) * (qy - ny) - (ny - py) * (qx - nx)
      let dot := (nx - px) * (qx - nx) + (ny - py) * (qy - ny)
      (zero → turnClass px py nx ny qx qy = .straight)
      ∧ (¬zero → 8 * (cross.natAbs : Int) ≤ 3 * dot → turnClass px py nx ny qx qy = .straight)
      ∧ (¬zero → ¬(8 * (cross.natAbs : Int) ≤ 3 * dot) → 8 * (cross.natAbs : Int) ≤ -(3 * dot) →
        turnClass px py nx ny qx qy = .back)
      ∧ (¬zero → ¬(8 * (cross.natAbs : Int) ≤ 3 * dot) → ¬(8 * (cross.natAbs : Int) ≤ -(3 * dot)) →
        (0 < cross ∧ turnClass px py nx ny qx qy = .left) ∨ (cross < 0 ∧ turnClass px py nx ny qx qy = .right))
      ∧ turnClass qx qy nx ny px py = (match turnClass px py nx ny qx qy with
        | .left => .right
        | .right => .left
        | .straight => .straight
        | .back => .back)

/-! ### The engines and the exit tree -/

/-- R18, R94, R110, R111, R126 to R134, R136 to R144: the Route Engine. The route arbiter grants the oldest QUEUED
entry, and the engine begins with the origin and then the target, following at most three forwards. With its frontier
empty a search ends NO_ROUTE, and at its limit EFFORT_LIMIT; a WORKING entry's search settles the first frontier node,
FOUND at a target, and else relaxes its segments in list order, each recorded on a strict improvement and a full
frontier overflowing by its last entry. A walk follows next segments to cost 0. The end of FORMING makes the entry
READY with the header and steps of the path, and a FOUND answer credits its final listing; the engine is idle then, a
build that waited for it begins, and the arbiters grant at once (R110, R182). -/
def Obligations.RouteEngineSteps : Prop :=
  (∀ (e : QueryEntry) (target : Target) (profile : Profile) (origin : Option Nat) (s : State),
    RouteStarted s e target profile origin (startRoute s e target profile origin)
    ∧ (s.re.work = none → s.ec.turn = .steady → (s.eu.latch = false ∨ s.eu.unit = .active) →
      oldestQueued isRoute s.qt = some e → e.query = .route target profile origin →
      grantRoute s = { s with
        qt := { entries := s.qt.entries.map fun f => if f.addr = e.addr ∧ f.tag = e.tag then
                  { f with state := .working, epoch := some s.ec.epoch } else f }
        re := startRoute s e target profile origin }))
  ∧ (∀ (ds : Directory) (wg : Graph) (n m k : Nat),
    (∀ l, Forwarded ds k n m → k ≤ 3 → tableGet ds.listings m = some l → l.status ≠ .relocated →
      resolveTarget ds wg (.listing n)
        = { targets := l.entrances, finalListing := some m, relocated := decide (0 < k) })
    ∧ (Forwarded ds k n m → k ≤ 3 →
      (tableGet ds.listings m = none
        ∨ ∃ l, tableGet ds.listings m = some l ∧ l.status = .relocated ∧ (k = 3 ∨ l.forward = none)) →
      resolveTarget ds wg (.listing n) = { targets := [], finalListing := none, relocated := decide (0 < k) })
    ∧ (tableGet wg.nodes n ≠ none →
      resolveTarget ds wg (.node n) = { targets := [n], finalListing := none, relocated := false })
    ∧ (tableGet wg.nodes n = none →
      resolveTarget ds wg (.node n) = { targets := [], finalListing := none, relocated := false })
    ∧ ∃ l, resolveTarget ds wg (.amenity n) = { targets := l, finalListing := none, relocated := false }
      ∧ (TableSorted wg.nodes → ∀ j, j ∈ l ↔ ∃ x, tableGet wg.nodes j = some x ∧ x.kind = .amenity n))
  ∧ (∀ (c : Configuration) (profile : Profile) (wg : Graph) (p m : Nat) (x : Search),
    (tableGet wg.segments m = none → relaxForward c profile wg p m x = x)
    ∧ (∀ g, tableGet wg.segments m = some g → permitted profile g p (otherEnd g p) = false →
      relaxForward c profile wg p m x = x)
    ∧ ∀ g, tableGet wg.segments m = some g → permitted profile g p (otherEnd g p) = true →
      SearchInv x →
      Relaxed ((recordOf x p).cost + segmentCost c profile wg g) m (otherEnd g p) x (relaxForward c profile wg p m x))
  ∧ ∀ (w : RouteWork) (s : State), s.resetHeld = false → s.re.work = some w →
    (w.phase = .searching → s.re.search.frontier = [] → exec .routeSearchSettle s = .next
      (withRouteWork { w with phase := .forming, outcome := some .noRoute, reached := none } s))
    ∧ (w.phase = .searching → s.re.search.frontier ≠ [] → w.settles = w.limit → exec .routeSearchSettle s = .next
      (withRouteWork { w with phase := .forming, outcome := some .effortLimit, reached := none } s))
    ∧ (∀ cost n rest, w.phase = .searching → s.re.search.frontier = (cost, n) :: rest → w.settles ≠ w.limit →
      haltCause s w.addr w.tag = none →
      let settled : Search := { s.re.search with
        records := tablePut s.re.search.records n { recordOf s.re.search n with settled := true }, frontier := rest }
      let relaxed := (((tableGet s.wg.nodes n).map fun x => x.adjacency).getD []).foldl
        (fun x m => relaxForward s.config w.profile s.wg n m x) settled
      (n ∈ w.targets → exec .routeSearchSettle s = .next (withRouteWork
        { w with settles := w.settles + 1, phase := .forming, outcome := some .found, reached := some n }
        { s with re := { s.re with search := settled } }))
      ∧ (n ∉ w.targets → exec .routeSearchSettle s = .next (withRouteWork { w with settles := w.settles + 1 }
        { s with re := { s.re with search := relaxed } })))
    ∧ (w.phase = .walking → haltCause s w.addr w.tag = none →
      ((recordOf s.eu.tree w.stands).cost = 0 → exec .exitTreeWalkStep s = .next
        (withRouteWork { w with phase := .forming, outcome := some .found, reached := some w.stands } s))
      ∧ ((recordOf s.eu.tree w.stands).cost ≠ 0 → (recordOf s.eu.tree w.stands).via = none →
        exec .exitTreeWalkStep s = .next
          (withRouteWork { w with phase := .forming, outcome := some .noRoute, reached := none } s))
      ∧ ∀ m g, (recordOf s.eu.tree w.stands).cost ≠ 0 → (recordOf s.eu.tree w.stands).via = some m →
        tableGet s.wg.segments m = some g →
        exec .exitTreeWalkStep s = .next
          (withRouteWork { w with stands := otherEnd g w.stands, taken := w.taken ++ [m] } s))
    ∧ (∀ epoch, RouteAnswered s w epoch (formRoute s w epoch).1 (formRoute s w epoch).2)
    ∧ (∀ e, TableInv s → w.phase = .forming → findEntry s.qt w.addr w.tag = some e → e.state = .working →
      ∃ t, exec .routeFormingEnd s = .next t ∧ sameStationsBut w.addr s t
        ∧ (∃ e', findEntry t.qt w.addr w.tag = some e' ∧ e'.state = .ready s.config.holdTime
          ∧ e'.answer = some (.route (formRoute s w (e.epoch.getD 0)).1 (formRoute s w (e.epoch.getD 0)).2)
          ∧ e'.epoch = e.epoch)
        ∧ stationAt t w.addr = { stationAt s w.addr with queue := (stationAt s w.addr).queue.map fun y =>
            if y.place = e.slot then
              { y with content := some (w.tag, .routeReady (formRoute s w (e.epoch.getD 0)).1) } else y }
        ∧ (∀ n, w.outcome = some .found → w.finalListing = some n → s.config.frozen = false →
          t.ds.listings = s.ds.listings.map (fun x => if x.1 = n then
            (x.1, { x.2 with popularity := min 65535 (x.2.popularity + 1) }) else x)
          ∧ t.ds.nameIndex = s.ds.nameIndex)
        ∧ ((w.outcome ≠ some .found ∨ w.finalListing = none ∨ s.config.frozen = true) → t.ds = s.ds)
        ∧ (t.re.work = none ∨ ∃ w', t.re.work = some w' ∧ ¬(w'.addr = w.addr ∧ w'.tag = w.tag))
        ∧ RouteIdled { s with
            qt := { entries := s.qt.entries.map fun f => if f.addr = w.addr ∧ f.tag = w.tag then
              { f with state := .ready s.config.holdTime
                       answer := some (.route (formRoute s w (e.epoch.getD 0)).1 (formRoute s w (e.epoch.getD 0)).2) }
              else f }
            re := { work := none, search := { s.re.search with frontier := [] } }, ds := t.ds, kl := t.kl } t
        ∧ t.service = s.service ∧ t.config = s.config ∧ t.wg = s.wg ∧ t.lm = s.lm ∧ t.cs = s.cs ∧ t.ec = s.ec
        ∧ t.ep = s.ep ∧ t.kl.trunks = s.kl.trunks)

/-- R110, R111, R147, R149 to R153, R155, R156: the Find Engine. The find arbiter grants the oldest QUEUED entry and
the scan reads the clock. A scan past the last place goes to FORMING; else the listing at the position is examined,
counted and offered to the result list when it passes every test its request carries, and the position advances. A
prefix matches at a word start; the list keeps its first 24 in rank order. The end of FORMING makes the entry READY
with the header and the results of the list, and the arbiters grant at once. -/
def Obligations.FindEngineSteps : Prop :=
  (∀ (e : QueryEntry) (l : Lookup) (browse : Bool) (s : State), s.fe.work = none → s.ec.turn = .steady →
    oldestQueued (fun f => !isRoute f) s.qt = some e →
    (e.query = .find l ∧ browse = false ∨ e.query = .browse l ∧ browse = true) →
    grantFind s = { s with
      qt := { entries := s.qt.entries.map fun f => if f.addr = e.addr ∧ f.tag = e.tag then
                { f with state := .working, epoch := some s.ec.epoch } else f }
      fe := { work := some (scanBegun s e l browse) } })
  ∧ (∀ typed key : List Nat, prefixMatches typed key = true ↔
      ∃ i, i < key.length ∧ (i = 0 ∨ key[i - 1]? = some 0) ∧ typed <+: key.drop i)
  ∧ (∀ (l : Lookup) (clockSet : Bool) (minute : Nat) (x : Listing), isMatch l clockSet minute x = true ↔
      (∀ typed, l.typed = some typed → prefixMatches typed x.name = true)
      ∧ (∀ c, l.category = some c → c ∈ x.categories) ∧ (∀ f, l.floor = some f → x.floor = f)
      ∧ (l.openOnly = true → openNow x clockSet minute = true))
  ∧ (∀ (key : Nat → List Nat) (e : Nat × Nat) (results : List (Nat × Nat)),
    let before := fun a b : Nat × Nat => decide (b.2 < a.2) || (a.2 == b.2 && directoryBefore (key a.1, a.1) (key b.1, b.1))
    results.Pairwise (fun a b => before a b = true) → (∀ f ∈ results, f.1 ≠ e.1) →
    offerMatch key e results = (results.filter (fun f => before f e) ++ e :: results.filter (fun f => before e f)).take 24)
  ∧ (∀ (w : FindWork) (epoch : Nat) (s : State),
    let header := (formFind s w epoch).1
    let results := (formFind s w epoch).2
    header = { tag := w.tag, browse := w.browse, epoch := epoch, total := w.total, returned := w.results.length
               pageCount := (w.results.length + 7) / 8 }
    ∧ results.length = w.results.length
    ∧ ∀ (i n count : Nat) (l : Listing), w.results[i]? = some (n, count) → tableGet s.ds.listings n = some l →
      results[i]? = some (resultEntry w n l))
  ∧ ∀ (w : FindWork) (s : State), s.resetHeld = false → s.fe.work = some w → TableInv s →
    (w.forming = false → s.ds.nameIndex.length ≤ w.position →
      exec .findScanStep s = .next (withFindWork { w with forming := true } s))
    ∧ (∀ n l, w.forming = false → s.ds.nameIndex[w.position]? = some n → haltCause s w.addr w.tag = none →
      tableGet s.ds.listings n = some l →
      exec .findScanStep s = .next (withFindWork (if isMatch w.lookup w.clockSet w.minute l then
          { w with position := w.position + 1, total := w.total + 1
                   results := offerMatch (nameOf s.ds) (n, l.popularity) w.results }
        else { w with position := w.position + 1 }) s))
    ∧ ∀ e, w.forming = true → findEntry s.qt w.addr w.tag = some e → e.state = .working →
      ∃ t, exec .findFormingEnd s = .next t ∧ sameStationsBut w.addr s t
        ∧ (∃ e', findEntry t.qt w.addr w.tag = some e' ∧ e'.state = .ready s.config.holdTime
          ∧ e'.answer = some (.find (formFind s w (e.epoch.getD 0)).1 (formFind s w (e.epoch.getD 0)).2)
          ∧ e'.epoch = e.epoch)
        ∧ stationAt t w.addr = { stationAt s w.addr with queue := (stationAt s w.addr).queue.map fun y =>
            if y.place = e.slot then
              { y with content := some (w.tag, .findReady (formFind s w (e.epoch.getD 0)).1) } else y }
        ∧ Granted { s with
            qt := { entries := s.qt.entries.map fun f => if f.addr = w.addr ∧ f.tag = w.tag then
              { f with state := .ready s.config.holdTime
                       answer := some (.find (formFind s w (e.epoch.getD 0)).1 (formFind s w (e.epoch.getD 0)).2) }
              else f }
            fe := { work := none }, kl := t.kl } t
        ∧ t.ds = s.ds ∧ t.wg = s.wg ∧ t.lm = s.lm ∧ t.cs = s.cs ∧ t.ec = s.ec ∧ t.ep = s.ep
        ∧ t.kl.trunks = s.kl.trunks

/-- R118, R126, R150, R156: an engine that passes a boundary with its entry HALTING stops, and the entry is freed with
CANCELLED, REFUSED EVACUATING or no message, by its cause; no answer is written. The engine is idle then: a build that
waited for the route engine begins (R182), and the arbiters grant at once (R110). Every step that would pass the boundary
does just that there: the settle, the step of a walk, the step of a scan and the end of FORMING. That the rows for the
halts are steps of their own, beside the engine steps that pass the same boundary, is the model's reading (log 34). -/
def Obligations.EnginesHalt : Prop :=
  (∀ (w : RouteWork) (e : QueryEntry) (cause : HaltCause) (s : State), s.resetHeld = false → s.re.work = some w →
      atRouteBoundary w s = true → findEntry s.qt w.addr w.tag = some e → e.state = .halting cause →
      ∃ t, exec .routeEngineHalt s = .next t
        ∧ (t.re.work = none ∨ ∃ w', t.re.work = some w' ∧ ¬(w'.addr = w.addr ∧ w'.tag = w.tag))
        ∧ findEntry t.qt w.addr w.tag = none ∧ sameStationsBut w.addr s t
        ∧ (cause = .stationLeft → stationAt t w.addr = stationAt s w.addr)
        ∧ (cause = .evacuation → stationAt t w.addr =
          fillSlot e.slot w.tag (.refused .evacuating) (stationAt s w.addr))
        ∧ (∀ place, cause = .cancel → e.cancelSlot = some place → stationAt t w.addr =
          releaseSlot e.slot (fillSlot place w.tag .cancelled (stationAt s w.addr)))
        ∧ (w.phase ≠ .forming → exec (if w.phase = .searching then .routeSearchSettle else .exitTreeWalkStep) s
          = exec .routeEngineHalt s)
        ∧ (w.phase = .forming → exec .routeFormingEnd s = exec .routeEngineHalt s)
        ∧ (TableInv s → RouteIdled { s with
            qt := { entries := s.qt.entries.filter fun f => !(f.addr == w.addr && f.tag == w.tag) }
            re := { work := none, search := { s.re.search with frontier := [] } }, kl := t.kl } t)
        ∧ sameRecords s t ∧ t.ec = s.ec ∧ t.ep = s.ep ∧ t.kl.trunks = s.kl.trunks)
    ∧ ∀ (w : FindWork) (e : QueryEntry) (cause : HaltCause) (s : State), s.resetHeld = false → s.fe.work = some w →
      atFindBoundary w s = true → findEntry s.qt w.addr w.tag = some e → e.state = .halting cause →
      ∃ t, exec .findEngineHalt s = .next t
        ∧ (t.fe.work = none ∨ ∃ w', t.fe.work = some w' ∧ ¬(w'.addr = w.addr ∧ w'.tag = w.tag))
        ∧ findEntry t.qt w.addr w.tag = none ∧ sameStationsBut w.addr s t
        ∧ (cause = .stationLeft → stationAt t w.addr = stationAt s w.addr)
        ∧ (∀ place, cause = .cancel → e.cancelSlot = some place → stationAt t w.addr =
          releaseSlot e.slot (fillSlot place w.tag .cancelled (stationAt s w.addr)))
        ∧ exec (if w.forming then .findFormingEnd else .findScanStep) s = exec .findEngineHalt s
        ∧ (TableInv s → Granted { s with
            qt := { entries := s.qt.entries.filter fun f => !(f.addr == w.addr && f.tag == w.tag) }
            fe := { work := none }, kl := t.kl } t)
        ∧ sameRecords s t ∧ t.ec = s.ec ∧ t.ep = s.ep ∧ t.kl.trunks = s.kl.trunks

/-- R110, R182 to R184: a build begins in SERVICE with the latch set, the unit OFF, the Epoch Controller STEADY and the
route engine IDLE, and not otherwise, with every usable exit a source at cost 0; those beyond the 512th are dropped and
the APPROXIMATE flag is set. It settles the first frontier node and relaxes its segments in list order backward, from the
nodes that may step onto it in the EVACUATION profile, and completes when the frontier is empty: the unit is ACTIVE, and a
wanted turn starts at once, else both arbiters grant their oldest QUEUED entries. That the build's start is also a step of
its own is the model's reading of the table's row (log 4). That the start of the wanted turn answers an auto-turn expiry
which waits too is the model's choice (log 5). -/
def Obligations.ExitTreeBuilt : Prop :=
  (∀ s : State, s.resetHeld = false →
      let due := s.service = .service ∧ s.eu.latch = true ∧ s.eu.unit = .off ∧ s.ec.turn = .steady ∧ s.re.work = none
      (due → ∃ x : Search, exec .exitTreeBuildStart s = .next { s with eu := { s.eu with unit := .building, tree := x } }
        ∧ TreeBegun s.wg x)
      ∧ (¬due → exec .exitTreeBuildStart s = .next s))
    ∧ (∀ (c : Configuration) (wg : Graph) (q m : Nat) (x : Search),
      (tableGet wg.segments m = none → relaxBackward c wg q m x = x)
      ∧ (∀ g, tableGet wg.segments m = some g → permitted .evacuation g (otherEnd g q) q = false →
        relaxBackward c wg q m x = x)
      ∧ ∀ g, tableGet wg.segments m = some g → permitted .evacuation g (otherEnd g q) q = true → SearchInv x →
        Relaxed ((recordOf x q).cost + segmentCost c .evacuation wg g) m (otherEnd g q) x (relaxBackward c wg q m x))
    ∧ (∀ (cost n : Nat) (rest : List (Nat × Nat)) (s : State), s.resetHeld = false → s.eu.unit = .building →
      s.eu.tree.frontier = (cost, n) :: rest →
      let settled : Search := { s.eu.tree with
        records := tablePut s.eu.tree.records n { recordOf s.eu.tree n with settled := true }, frontier := rest }
      let relaxed := (((tableGet s.wg.nodes n).map fun x => x.adjacency).getD []).foldl
        (fun x m => relaxBackward s.config s.wg n m x) settled
      exec .exitTreeSettle s = .next { s with eu := { s.eu with tree := relaxed } })
    ∧ (∀ s : State, s.resetHeld = false → s.eu.unit = .building → s.eu.tree.frontier = [] → s.ec.wanted = true →
      exec .exitTreeBuildComplete s = .next
        { s with eu := { s.eu with unit := .active }
                 ec := { s.ec with wanted := false, turn := .draining, expiring := false } })
    ∧ ∀ s : State, s.resetHeld = false → s.eu.unit = .building → s.eu.tree.frontier = [] → s.ec.wanted = false →
      ∃ t, exec .exitTreeBuildComplete s = .next t ∧ t.eu = { s.eu with unit := .active }
        ∧ (s.re.work = none → s.ec.turn = .steady → oldestQueued isRoute s.qt ≠ none →
          ∃ w, t.re.work = some w ∧ w.phase ≠ .searching)
        ∧ (TableInv s → Granted { s with eu := { s.eu with unit := .active } } t)
        ∧ sameRecords s t ∧ t.ec = s.ec ∧ t.ep = s.ep ∧ t.kl = s.kl
end

