-- ==== Sys2Proof/Laws/State.lean ====
section
/-! SUPPORT. What each named update of the state leaves as it was: one lemma for each field and update. -/

namespace Sys2Proof.Laws
open Sys2Proof.Machine

variable (s : State)

/-! ### putStation -/

@[simp] theorem putStation_service (a : Addr) (st : Station) : (putStation a st s).service = s.service := rfl
@[simp] theorem putStation_resetHeld (a : Addr) (st : Station) : (putStation a st s).resetHeld = s.resetHeld := rfl
@[simp] theorem putStation_config (a : Addr) (st : Station) : (putStation a st s).config = s.config := rfl
@[simp] theorem putStation_ds (a : Addr) (st : Station) : (putStation a st s).ds = s.ds := rfl
@[simp] theorem putStation_wg (a : Addr) (st : Station) : (putStation a st s).wg = s.wg := rfl
@[simp] theorem putStation_lm (a : Addr) (st : Station) : (putStation a st s).lm = s.lm := rfl
@[simp] theorem putStation_cs (a : Addr) (st : Station) : (putStation a st s).cs = s.cs := rfl
@[simp] theorem putStation_ec (a : Addr) (st : Station) : (putStation a st s).ec = s.ec := rfl
@[simp] theorem putStation_qt (a : Addr) (st : Station) : (putStation a st s).qt = s.qt := rfl
@[simp] theorem putStation_re (a : Addr) (st : Station) : (putStation a st s).re = s.re := rfl
@[simp] theorem putStation_fe (a : Addr) (st : Station) : (putStation a st s).fe = s.fe := rfl
@[simp] theorem putStation_eu (a : Addr) (st : Station) : (putStation a st s).eu = s.eu := rfl
@[simp] theorem putStation_ep (a : Addr) (st : Station) : (putStation a st s).ep = s.ep := rfl
@[simp] theorem putStation_pending (a : Addr) (st : Station) : (putStation a st s).pending = s.pending := rfl
@[simp] theorem putStation_kl_trunks (a : Addr) (st : Station) : (putStation a st s).kl.trunks = s.kl.trunks := rfl

/-! ### updateStation -/

@[simp] theorem updateStation_service (a : Addr) (f : Station → Station) : (updateStation a f s).service = s.service := rfl
@[simp] theorem updateStation_resetHeld (a : Addr) (f : Station → Station) : (updateStation a f s).resetHeld = s.resetHeld := rfl
@[simp] theorem updateStation_config (a : Addr) (f : Station → Station) : (updateStation a f s).config = s.config := rfl
@[simp] theorem updateStation_ds (a : Addr) (f : Station → Station) : (updateStation a f s).ds = s.ds := rfl
@[simp] theorem updateStation_wg (a : Addr) (f : Station → Station) : (updateStation a f s).wg = s.wg := rfl
@[simp] theorem updateStation_lm (a : Addr) (f : Station → Station) : (updateStation a f s).lm = s.lm := rfl
@[simp] theorem updateStation_cs (a : Addr) (f : Station → Station) : (updateStation a f s).cs = s.cs := rfl
@[simp] theorem updateStation_ec (a : Addr) (f : Station → Station) : (updateStation a f s).ec = s.ec := rfl
@[simp] theorem updateStation_qt (a : Addr) (f : Station → Station) : (updateStation a f s).qt = s.qt := rfl
@[simp] theorem updateStation_re (a : Addr) (f : Station → Station) : (updateStation a f s).re = s.re := rfl
@[simp] theorem updateStation_fe (a : Addr) (f : Station → Station) : (updateStation a f s).fe = s.fe := rfl
@[simp] theorem updateStation_eu (a : Addr) (f : Station → Station) : (updateStation a f s).eu = s.eu := rfl
@[simp] theorem updateStation_ep (a : Addr) (f : Station → Station) : (updateStation a f s).ep = s.ep := rfl
@[simp] theorem updateStation_pending (a : Addr) (f : Station → Station) : (updateStation a f s).pending = s.pending := rfl
@[simp] theorem updateStation_kl_trunks (a : Addr) (f : Station → Station) : (updateStation a f s).kl.trunks = s.kl.trunks := rfl

/-! ### mapStations -/

@[simp] theorem mapStations_service (f : Addr → Station → Station) : (mapStations f s).service = s.service := rfl
@[simp] theorem mapStations_resetHeld (f : Addr → Station → Station) : (mapStations f s).resetHeld = s.resetHeld := rfl
@[simp] theorem mapStations_config (f : Addr → Station → Station) : (mapStations f s).config = s.config := rfl
@[simp] theorem mapStations_ds (f : Addr → Station → Station) : (mapStations f s).ds = s.ds := rfl
@[simp] theorem mapStations_wg (f : Addr → Station → Station) : (mapStations f s).wg = s.wg := rfl
@[simp] theorem mapStations_lm (f : Addr → Station → Station) : (mapStations f s).lm = s.lm := rfl
@[simp] theorem mapStations_cs (f : Addr → Station → Station) : (mapStations f s).cs = s.cs := rfl
@[simp] theorem mapStations_ec (f : Addr → Station → Station) : (mapStations f s).ec = s.ec := rfl
@[simp] theorem mapStations_qt (f : Addr → Station → Station) : (mapStations f s).qt = s.qt := rfl
@[simp] theorem mapStations_re (f : Addr → Station → Station) : (mapStations f s).re = s.re := rfl
@[simp] theorem mapStations_fe (f : Addr → Station → Station) : (mapStations f s).fe = s.fe := rfl
@[simp] theorem mapStations_eu (f : Addr → Station → Station) : (mapStations f s).eu = s.eu := rfl
@[simp] theorem mapStations_ep (f : Addr → Station → Station) : (mapStations f s).ep = s.ep := rfl
@[simp] theorem mapStations_pending (f : Addr → Station → Station) : (mapStations f s).pending = s.pending := rfl
@[simp] theorem mapStations_kl_trunks (f : Addr → Station → Station) : (mapStations f s).kl.trunks = s.kl.trunks := rfl

/-! ### putTrunk -/

@[simp] theorem putTrunk_service (t : TrunkNo) (k : Trunk) : (putTrunk t k s).service = s.service := rfl
@[simp] theorem putTrunk_resetHeld (t : TrunkNo) (k : Trunk) : (putTrunk t k s).resetHeld = s.resetHeld := rfl
@[simp] theorem putTrunk_config (t : TrunkNo) (k : Trunk) : (putTrunk t k s).config = s.config := rfl
@[simp] theorem putTrunk_ds (t : TrunkNo) (k : Trunk) : (putTrunk t k s).ds = s.ds := rfl
@[simp] theorem putTrunk_wg (t : TrunkNo) (k : Trunk) : (putTrunk t k s).wg = s.wg := rfl
@[simp] theorem putTrunk_lm (t : TrunkNo) (k : Trunk) : (putTrunk t k s).lm = s.lm := rfl
@[simp] theorem putTrunk_cs (t : TrunkNo) (k : Trunk) : (putTrunk t k s).cs = s.cs := rfl
@[simp] theorem putTrunk_ec (t : TrunkNo) (k : Trunk) : (putTrunk t k s).ec = s.ec := rfl
@[simp] theorem putTrunk_qt (t : TrunkNo) (k : Trunk) : (putTrunk t k s).qt = s.qt := rfl
@[simp] theorem putTrunk_re (t : TrunkNo) (k : Trunk) : (putTrunk t k s).re = s.re := rfl
@[simp] theorem putTrunk_fe (t : TrunkNo) (k : Trunk) : (putTrunk t k s).fe = s.fe := rfl
@[simp] theorem putTrunk_eu (t : TrunkNo) (k : Trunk) : (putTrunk t k s).eu = s.eu := rfl
@[simp] theorem putTrunk_ep (t : TrunkNo) (k : Trunk) : (putTrunk t k s).ep = s.ep := rfl
@[simp] theorem putTrunk_pending (t : TrunkNo) (k : Trunk) : (putTrunk t k s).pending = s.pending := rfl
@[simp] theorem putTrunk_kl_stations (t : TrunkNo) (k : Trunk) : (putTrunk t k s).kl.stations = s.kl.stations := rfl

/-! ### updateTrunk -/

@[simp] theorem updateTrunk_service (t : TrunkNo) (f : Trunk → Trunk) : (updateTrunk t f s).service = s.service := rfl
@[simp] theorem updateTrunk_resetHeld (t : TrunkNo) (f : Trunk → Trunk) : (updateTrunk t f s).resetHeld = s.resetHeld := rfl
@[simp] theorem updateTrunk_config (t : TrunkNo) (f : Trunk → Trunk) : (updateTrunk t f s).config = s.config := rfl
@[simp] theorem updateTrunk_ds (t : TrunkNo) (f : Trunk → Trunk) : (updateTrunk t f s).ds = s.ds := rfl
@[simp] theorem updateTrunk_wg (t : TrunkNo) (f : Trunk → Trunk) : (updateTrunk t f s).wg = s.wg := rfl
@[simp] theorem updateTrunk_lm (t : TrunkNo) (f : Trunk → Trunk) : (updateTrunk t f s).lm = s.lm := rfl
@[simp] theorem updateTrunk_cs (t : TrunkNo) (f : Trunk → Trunk) : (updateTrunk t f s).cs = s.cs := rfl
@[simp] theorem updateTrunk_ec (t : TrunkNo) (f : Trunk → Trunk) : (updateTrunk t f s).ec = s.ec := rfl
@[simp] theorem updateTrunk_qt (t : TrunkNo) (f : Trunk → Trunk) : (updateTrunk t f s).qt = s.qt := rfl
@[simp] theorem updateTrunk_re (t : TrunkNo) (f : Trunk → Trunk) : (updateTrunk t f s).re = s.re := rfl
@[simp] theorem updateTrunk_fe (t : TrunkNo) (f : Trunk → Trunk) : (updateTrunk t f s).fe = s.fe := rfl
@[simp] theorem updateTrunk_eu (t : TrunkNo) (f : Trunk → Trunk) : (updateTrunk t f s).eu = s.eu := rfl
@[simp] theorem updateTrunk_ep (t : TrunkNo) (f : Trunk → Trunk) : (updateTrunk t f s).ep = s.ep := rfl
@[simp] theorem updateTrunk_pending (t : TrunkNo) (f : Trunk → Trunk) : (updateTrunk t f s).pending = s.pending := rfl
@[simp] theorem updateTrunk_kl_stations (t : TrunkNo) (f : Trunk → Trunk) : (updateTrunk t f s).kl.stations = s.kl.stations := rfl

/-! ### raiseFlag -/

@[simp] theorem raiseFlag_service (f : AttnFlags) : (raiseFlag f s).service = s.service := rfl
@[simp] theorem raiseFlag_resetHeld (f : AttnFlags) : (raiseFlag f s).resetHeld = s.resetHeld := rfl
@[simp] theorem raiseFlag_config (f : AttnFlags) : (raiseFlag f s).config = s.config := rfl
@[simp] theorem raiseFlag_ds (f : AttnFlags) : (raiseFlag f s).ds = s.ds := rfl
@[simp] theorem raiseFlag_wg (f : AttnFlags) : (raiseFlag f s).wg = s.wg := rfl
@[simp] theorem raiseFlag_lm (f : AttnFlags) : (raiseFlag f s).lm = s.lm := rfl
@[simp] theorem raiseFlag_cs (f : AttnFlags) : (raiseFlag f s).cs = s.cs := rfl
@[simp] theorem raiseFlag_ec (f : AttnFlags) : (raiseFlag f s).ec = s.ec := rfl
@[simp] theorem raiseFlag_qt (f : AttnFlags) : (raiseFlag f s).qt = s.qt := rfl
@[simp] theorem raiseFlag_re (f : AttnFlags) : (raiseFlag f s).re = s.re := rfl
@[simp] theorem raiseFlag_fe (f : AttnFlags) : (raiseFlag f s).fe = s.fe := rfl
@[simp] theorem raiseFlag_eu (f : AttnFlags) : (raiseFlag f s).eu = s.eu := rfl
@[simp] theorem raiseFlag_kl (f : AttnFlags) : (raiseFlag f s).kl = s.kl := rfl
@[simp] theorem raiseFlag_pending (f : AttnFlags) : (raiseFlag f s).pending = s.pending := rfl
@[simp] theorem raiseFlag_ep_reply (f : AttnFlags) : (raiseFlag f s).ep.reply = s.ep.reply := rfl
@[simp] theorem raiseFlag_ep_forming (f : AttnFlags) : (raiseFlag f s).ep.forming = s.ep.forming := rfl
@[simp] theorem raiseFlag_ep_discarded (f : AttnFlags) : (raiseFlag f s).ep.discarded = s.ep.discarded := rfl
@[simp] theorem raiseFlag_ep_mask (f : AttnFlags) : (raiseFlag f s).ep.mask = s.ep.mask := rfl
@[simp] theorem raiseFlag_ep_miso (f : AttnFlags) : (raiseFlag f s).ep.miso = s.ep.miso := rfl

/-! ### clearFlags -/

@[simp] theorem clearFlags_service (f : AttnFlags) : (clearFlags f s).service = s.service := rfl
@[simp] theorem clearFlags_resetHeld (f : AttnFlags) : (clearFlags f s).resetHeld = s.resetHeld := rfl
@[simp] theorem clearFlags_config (f : AttnFlags) : (clearFlags f s).config = s.config := rfl
@[simp] theorem clearFlags_ds (f : AttnFlags) : (clearFlags f s).ds = s.ds := rfl
@[simp] theorem clearFlags_wg (f : AttnFlags) : (clearFlags f s).wg = s.wg := rfl
@[simp] theorem clearFlags_lm (f : AttnFlags) : (clearFlags f s).lm = s.lm := rfl
@[simp] theorem clearFlags_cs (f : AttnFlags) : (clearFlags f s).cs = s.cs := rfl
@[simp] theorem clearFlags_ec (f : AttnFlags) : (clearFlags f s).ec = s.ec := rfl
@[simp] theorem clearFlags_qt (f : AttnFlags) : (clearFlags f s).qt = s.qt := rfl
@[simp] theorem clearFlags_re (f : AttnFlags) : (clearFlags f s).re = s.re := rfl
@[simp] theorem clearFlags_fe (f : AttnFlags) : (clearFlags f s).fe = s.fe := rfl
@[simp] theorem clearFlags_eu (f : AttnFlags) : (clearFlags f s).eu = s.eu := rfl
@[simp] theorem clearFlags_kl (f : AttnFlags) : (clearFlags f s).kl = s.kl := rfl
@[simp] theorem clearFlags_pending (f : AttnFlags) : (clearFlags f s).pending = s.pending := rfl
@[simp] theorem clearFlags_ep_reply (f : AttnFlags) : (clearFlags f s).ep.reply = s.ep.reply := rfl
@[simp] theorem clearFlags_ep_forming (f : AttnFlags) : (clearFlags f s).ep.forming = s.ep.forming := rfl
@[simp] theorem clearFlags_ep_discarded (f : AttnFlags) : (clearFlags f s).ep.discarded = s.ep.discarded := rfl
@[simp] theorem clearFlags_ep_mask (f : AttnFlags) : (clearFlags f s).ep.mask = s.ep.mask := rfl
@[simp] theorem clearFlags_ep_miso (f : AttnFlags) : (clearFlags f s).ep.miso = s.ep.miso := rfl

/-! ### updateEntry -/

@[simp] theorem updateEntry_service (a : Addr) (tag : Tag) (f : QueryEntry → QueryEntry) : (updateEntry a tag f s).service = s.service := rfl
@[simp] theorem updateEntry_resetHeld (a : Addr) (tag : Tag) (f : QueryEntry → QueryEntry) : (updateEntry a tag f s).resetHeld = s.resetHeld := rfl
@[simp] theorem updateEntry_config (a : Addr) (tag : Tag) (f : QueryEntry → QueryEntry) : (updateEntry a tag f s).config = s.config := rfl
@[simp] theorem updateEntry_ds (a : Addr) (tag : Tag) (f : QueryEntry → QueryEntry) : (updateEntry a tag f s).ds = s.ds := rfl
@[simp] theorem updateEntry_wg (a : Addr) (tag : Tag) (f : QueryEntry → QueryEntry) : (updateEntry a tag f s).wg = s.wg := rfl
@[simp] theorem updateEntry_lm (a : Addr) (tag : Tag) (f : QueryEntry → QueryEntry) : (updateEntry a tag f s).lm = s.lm := rfl
@[simp] theorem updateEntry_cs (a : Addr) (tag : Tag) (f : QueryEntry → QueryEntry) : (updateEntry a tag f s).cs = s.cs := rfl
@[simp] theorem updateEntry_ec (a : Addr) (tag : Tag) (f : QueryEntry → QueryEntry) : (updateEntry a tag f s).ec = s.ec := rfl
@[simp] theorem updateEntry_re (a : Addr) (tag : Tag) (f : QueryEntry → QueryEntry) : (updateEntry a tag f s).re = s.re := rfl
@[simp] theorem updateEntry_fe (a : Addr) (tag : Tag) (f : QueryEntry → QueryEntry) : (updateEntry a tag f s).fe = s.fe := rfl
@[simp] theorem updateEntry_eu (a : Addr) (tag : Tag) (f : QueryEntry → QueryEntry) : (updateEntry a tag f s).eu = s.eu := rfl
@[simp] theorem updateEntry_kl (a : Addr) (tag : Tag) (f : QueryEntry → QueryEntry) : (updateEntry a tag f s).kl = s.kl := rfl
@[simp] theorem updateEntry_ep (a : Addr) (tag : Tag) (f : QueryEntry → QueryEntry) : (updateEntry a tag f s).ep = s.ep := rfl
@[simp] theorem updateEntry_pending (a : Addr) (tag : Tag) (f : QueryEntry → QueryEntry) : (updateEntry a tag f s).pending = s.pending := rfl

/-! ### dropEntry -/

@[simp] theorem dropEntry_service (a : Addr) (tag : Tag) : (dropEntry a tag s).service = s.service := rfl
@[simp] theorem dropEntry_resetHeld (a : Addr) (tag : Tag) : (dropEntry a tag s).resetHeld = s.resetHeld := rfl
@[simp] theorem dropEntry_config (a : Addr) (tag : Tag) : (dropEntry a tag s).config = s.config := rfl
@[simp] theorem dropEntry_ds (a : Addr) (tag : Tag) : (dropEntry a tag s).ds = s.ds := rfl
@[simp] theorem dropEntry_wg (a : Addr) (tag : Tag) : (dropEntry a tag s).wg = s.wg := rfl
@[simp] theorem dropEntry_lm (a : Addr) (tag : Tag) : (dropEntry a tag s).lm = s.lm := rfl
@[simp] theorem dropEntry_cs (a : Addr) (tag : Tag) : (dropEntry a tag s).cs = s.cs := rfl
@[simp] theorem dropEntry_ec (a : Addr) (tag : Tag) : (dropEntry a tag s).ec = s.ec := rfl
@[simp] theorem dropEntry_re (a : Addr) (tag : Tag) : (dropEntry a tag s).re = s.re := rfl
@[simp] theorem dropEntry_fe (a : Addr) (tag : Tag) : (dropEntry a tag s).fe = s.fe := rfl
@[simp] theorem dropEntry_eu (a : Addr) (tag : Tag) : (dropEntry a tag s).eu = s.eu := rfl
@[simp] theorem dropEntry_kl (a : Addr) (tag : Tag) : (dropEntry a tag s).kl = s.kl := rfl
@[simp] theorem dropEntry_ep (a : Addr) (tag : Tag) : (dropEntry a tag s).ep = s.ep := rfl
@[simp] theorem dropEntry_pending (a : Addr) (tag : Tag) : (dropEntry a tag s).pending = s.pending := rfl

/-! ### withRouteWork -/

@[simp] theorem withRouteWork_service (w : RouteWork) : (withRouteWork w s).service = s.service := rfl
@[simp] theorem withRouteWork_resetHeld (w : RouteWork) : (withRouteWork w s).resetHeld = s.resetHeld := rfl
@[simp] theorem withRouteWork_config (w : RouteWork) : (withRouteWork w s).config = s.config := rfl
@[simp] theorem withRouteWork_ds (w : RouteWork) : (withRouteWork w s).ds = s.ds := rfl
@[simp] theorem withRouteWork_wg (w : RouteWork) : (withRouteWork w s).wg = s.wg := rfl
@[simp] theorem withRouteWork_lm (w : RouteWork) : (withRouteWork w s).lm = s.lm := rfl
@[simp] theorem withRouteWork_cs (w : RouteWork) : (withRouteWork w s).cs = s.cs := rfl
@[simp] theorem withRouteWork_ec (w : RouteWork) : (withRouteWork w s).ec = s.ec := rfl
@[simp] theorem withRouteWork_qt (w : RouteWork) : (withRouteWork w s).qt = s.qt := rfl
@[simp] theorem withRouteWork_fe (w : RouteWork) : (withRouteWork w s).fe = s.fe := rfl
@[simp] theorem withRouteWork_eu (w : RouteWork) : (withRouteWork w s).eu = s.eu := rfl
@[simp] theorem withRouteWork_kl (w : RouteWork) : (withRouteWork w s).kl = s.kl := rfl
@[simp] theorem withRouteWork_ep (w : RouteWork) : (withRouteWork w s).ep = s.ep := rfl
@[simp] theorem withRouteWork_pending (w : RouteWork) : (withRouteWork w s).pending = s.pending := rfl
@[simp] theorem withRouteWork_re_search (w : RouteWork) : (withRouteWork w s).re.search = s.re.search := rfl

/-! ### routeIdle -/

@[simp] theorem routeIdle_service : (routeIdle s).service = s.service := rfl
@[simp] theorem routeIdle_resetHeld : (routeIdle s).resetHeld = s.resetHeld := rfl
@[simp] theorem routeIdle_config : (routeIdle s).config = s.config := rfl
@[simp] theorem routeIdle_ds : (routeIdle s).ds = s.ds := rfl
@[simp] theorem routeIdle_wg : (routeIdle s).wg = s.wg := rfl
@[simp] theorem routeIdle_lm : (routeIdle s).lm = s.lm := rfl
@[simp] theorem routeIdle_cs : (routeIdle s).cs = s.cs := rfl
@[simp] theorem routeIdle_ec : (routeIdle s).ec = s.ec := rfl
@[simp] theorem routeIdle_qt : (routeIdle s).qt = s.qt := rfl
@[simp] theorem routeIdle_fe : (routeIdle s).fe = s.fe := rfl
@[simp] theorem routeIdle_eu : (routeIdle s).eu = s.eu := rfl
@[simp] theorem routeIdle_kl : (routeIdle s).kl = s.kl := rfl
@[simp] theorem routeIdle_ep : (routeIdle s).ep = s.ep := rfl
@[simp] theorem routeIdle_pending : (routeIdle s).pending = s.pending := rfl

/-! ### withFindWork -/

@[simp] theorem withFindWork_service (w : FindWork) : (withFindWork w s).service = s.service := rfl
@[simp] theorem withFindWork_resetHeld (w : FindWork) : (withFindWork w s).resetHeld = s.resetHeld := rfl
@[simp] theorem withFindWork_config (w : FindWork) : (withFindWork w s).config = s.config := rfl
@[simp] theorem withFindWork_ds (w : FindWork) : (withFindWork w s).ds = s.ds := rfl
@[simp] theorem withFindWork_wg (w : FindWork) : (withFindWork w s).wg = s.wg := rfl
@[simp] theorem withFindWork_lm (w : FindWork) : (withFindWork w s).lm = s.lm := rfl
@[simp] theorem withFindWork_cs (w : FindWork) : (withFindWork w s).cs = s.cs := rfl
@[simp] theorem withFindWork_ec (w : FindWork) : (withFindWork w s).ec = s.ec := rfl
@[simp] theorem withFindWork_qt (w : FindWork) : (withFindWork w s).qt = s.qt := rfl
@[simp] theorem withFindWork_re (w : FindWork) : (withFindWork w s).re = s.re := rfl
@[simp] theorem withFindWork_eu (w : FindWork) : (withFindWork w s).eu = s.eu := rfl
@[simp] theorem withFindWork_kl (w : FindWork) : (withFindWork w s).kl = s.kl := rfl
@[simp] theorem withFindWork_ep (w : FindWork) : (withFindWork w s).ep = s.ep := rfl
@[simp] theorem withFindWork_pending (w : FindWork) : (withFindWork w s).pending = s.pending := rfl

/-! ### findIdle -/

@[simp] theorem findIdle_service : (findIdle s).service = s.service := rfl
@[simp] theorem findIdle_resetHeld : (findIdle s).resetHeld = s.resetHeld := rfl
@[simp] theorem findIdle_config : (findIdle s).config = s.config := rfl
@[simp] theorem findIdle_ds : (findIdle s).ds = s.ds := rfl
@[simp] theorem findIdle_wg : (findIdle s).wg = s.wg := rfl
@[simp] theorem findIdle_lm : (findIdle s).lm = s.lm := rfl
@[simp] theorem findIdle_cs : (findIdle s).cs = s.cs := rfl
@[simp] theorem findIdle_ec : (findIdle s).ec = s.ec := rfl
@[simp] theorem findIdle_qt : (findIdle s).qt = s.qt := rfl
@[simp] theorem findIdle_re : (findIdle s).re = s.re := rfl
@[simp] theorem findIdle_eu : (findIdle s).eu = s.eu := rfl
@[simp] theorem findIdle_kl : (findIdle s).kl = s.kl := rfl
@[simp] theorem findIdle_ep : (findIdle s).ep = s.ep := rfl
@[simp] theorem findIdle_pending : (findIdle s).pending = s.pending := rfl

/-! ### withWork -/

@[simp] theorem withWork_service (w : TurnWork) : (withWork w s).service = s.service := rfl
@[simp] theorem withWork_resetHeld (w : TurnWork) : (withWork w s).resetHeld = s.resetHeld := rfl
@[simp] theorem withWork_config (w : TurnWork) : (withWork w s).config = s.config := rfl
@[simp] theorem withWork_ds (w : TurnWork) : (withWork w s).ds = s.ds := rfl
@[simp] theorem withWork_wg (w : TurnWork) : (withWork w s).wg = s.wg := rfl
@[simp] theorem withWork_lm (w : TurnWork) : (withWork w s).lm = s.lm := rfl
@[simp] theorem withWork_cs (w : TurnWork) : (withWork w s).cs = s.cs := rfl
@[simp] theorem withWork_qt (w : TurnWork) : (withWork w s).qt = s.qt := rfl
@[simp] theorem withWork_re (w : TurnWork) : (withWork w s).re = s.re := rfl
@[simp] theorem withWork_fe (w : TurnWork) : (withWork w s).fe = s.fe := rfl
@[simp] theorem withWork_eu (w : TurnWork) : (withWork w s).eu = s.eu := rfl
@[simp] theorem withWork_kl (w : TurnWork) : (withWork w s).kl = s.kl := rfl
@[simp] theorem withWork_ep (w : TurnWork) : (withWork w s).ep = s.ep := rfl
@[simp] theorem withWork_pending (w : TurnWork) : (withWork w s).pending = s.pending := rfl
@[simp] theorem withWork_ec_epoch (w : TurnWork) : (withWork w s).ec.epoch = s.ec.epoch := rfl
@[simp] theorem withWork_ec_turn (w : TurnWork) : (withWork w s).ec.turn = s.ec.turn := rfl
@[simp] theorem withWork_ec_wanted (w : TurnWork) : (withWork w s).ec.wanted = s.ec.wanted := rfl
@[simp] theorem withWork_ec_rollover (w : TurnWork) : (withWork w s).ec.rollover = s.ec.rollover := rfl
@[simp] theorem withWork_ec_countdown (w : TurnWork) : (withWork w s).ec.countdown = s.ec.countdown := rfl
@[simp] theorem withWork_ec_expiring (w : TurnWork) : (withWork w s).ec.expiring = s.ec.expiring := rfl
@[simp] theorem withWork_ec_report (w : TurnWork) : (withWork w s).ec.report = s.ec.report := rfl

/-! ### startBuild -/

@[simp] theorem startBuild_service : (startBuild s).service = s.service := rfl
@[simp] theorem startBuild_resetHeld : (startBuild s).resetHeld = s.resetHeld := rfl
@[simp] theorem startBuild_config : (startBuild s).config = s.config := rfl
@[simp] theorem startBuild_ds : (startBuild s).ds = s.ds := rfl
@[simp] theorem startBuild_wg : (startBuild s).wg = s.wg := rfl
@[simp] theorem startBuild_lm : (startBuild s).lm = s.lm := rfl
@[simp] theorem startBuild_cs : (startBuild s).cs = s.cs := rfl
@[simp] theorem startBuild_ec : (startBuild s).ec = s.ec := rfl
@[simp] theorem startBuild_qt : (startBuild s).qt = s.qt := rfl
@[simp] theorem startBuild_re : (startBuild s).re = s.re := rfl
@[simp] theorem startBuild_fe : (startBuild s).fe = s.fe := rfl
@[simp] theorem startBuild_kl : (startBuild s).kl = s.kl := rfl
@[simp] theorem startBuild_ep : (startBuild s).ep = s.ep := rfl
@[simp] theorem startBuild_pending : (startBuild s).pending = s.pending := rfl
@[simp] theorem startBuild_eu_asserted : (startBuild s).eu.asserted = s.eu.asserted := rfl
@[simp] theorem startBuild_eu_differing : (startBuild s).eu.differing = s.eu.differing := rfl
@[simp] theorem startBuild_eu_latch : (startBuild s).eu.latch = s.eu.latch := rfl

/-! ### driveMiso -/

@[simp] theorem driveMiso_service (bytes : List Byte) : (driveMiso bytes s).service = s.service := rfl
@[simp] theorem driveMiso_resetHeld (bytes : List Byte) : (driveMiso bytes s).resetHeld = s.resetHeld := rfl
@[simp] theorem driveMiso_config (bytes : List Byte) : (driveMiso bytes s).config = s.config := rfl
@[simp] theorem driveMiso_ds (bytes : List Byte) : (driveMiso bytes s).ds = s.ds := rfl
@[simp] theorem driveMiso_wg (bytes : List Byte) : (driveMiso bytes s).wg = s.wg := rfl
@[simp] theorem driveMiso_lm (bytes : List Byte) : (driveMiso bytes s).lm = s.lm := rfl
@[simp] theorem driveMiso_cs (bytes : List Byte) : (driveMiso bytes s).cs = s.cs := rfl
@[simp] theorem driveMiso_ec (bytes : List Byte) : (driveMiso bytes s).ec = s.ec := rfl
@[simp] theorem driveMiso_qt (bytes : List Byte) : (driveMiso bytes s).qt = s.qt := rfl
@[simp] theorem driveMiso_re (bytes : List Byte) : (driveMiso bytes s).re = s.re := rfl
@[simp] theorem driveMiso_fe (bytes : List Byte) : (driveMiso bytes s).fe = s.fe := rfl
@[simp] theorem driveMiso_eu (bytes : List Byte) : (driveMiso bytes s).eu = s.eu := rfl
@[simp] theorem driveMiso_kl (bytes : List Byte) : (driveMiso bytes s).kl = s.kl := rfl
@[simp] theorem driveMiso_pending (bytes : List Byte) : (driveMiso bytes s).pending = s.pending := rfl
@[simp] theorem driveMiso_ep_reply (bytes : List Byte) : (driveMiso bytes s).ep.reply = s.ep.reply := rfl
@[simp] theorem driveMiso_ep_forming (bytes : List Byte) : (driveMiso bytes s).ep.forming = s.ep.forming := rfl
@[simp] theorem driveMiso_ep_discarded (bytes : List Byte) : (driveMiso bytes s).ep.discarded = s.ep.discarded := rfl
@[simp] theorem driveMiso_ep_flags (bytes : List Byte) : (driveMiso bytes s).ep.flags = s.ep.flags := rfl
@[simp] theorem driveMiso_ep_mask (bytes : List Byte) : (driveMiso bytes s).ep.mask = s.ep.mask := rfl

/-! ### discardFrame -/

@[simp] theorem discardFrame_service : (discardFrame s).service = s.service := rfl
@[simp] theorem discardFrame_resetHeld : (discardFrame s).resetHeld = s.resetHeld := rfl
@[simp] theorem discardFrame_config : (discardFrame s).config = s.config := rfl
@[simp] theorem discardFrame_ds : (discardFrame s).ds = s.ds := rfl
@[simp] theorem discardFrame_wg : (discardFrame s).wg = s.wg := rfl
@[simp] theorem discardFrame_lm : (discardFrame s).lm = s.lm := rfl
@[simp] theorem discardFrame_cs : (discardFrame s).cs = s.cs := rfl
@[simp] theorem discardFrame_ec : (discardFrame s).ec = s.ec := rfl
@[simp] theorem discardFrame_qt : (discardFrame s).qt = s.qt := rfl
@[simp] theorem discardFrame_re : (discardFrame s).re = s.re := rfl
@[simp] theorem discardFrame_fe : (discardFrame s).fe = s.fe := rfl
@[simp] theorem discardFrame_eu : (discardFrame s).eu = s.eu := rfl
@[simp] theorem discardFrame_kl : (discardFrame s).kl = s.kl := rfl
@[simp] theorem discardFrame_pending : (discardFrame s).pending = s.pending := rfl
@[simp] theorem discardFrame_ep_forming : (discardFrame s).ep.forming = s.ep.forming := rfl
@[simp] theorem discardFrame_ep_flags : (discardFrame s).ep.flags = s.ep.flags := rfl
@[simp] theorem discardFrame_ep_mask : (discardFrame s).ep.mask = s.ep.mask := rfl
@[simp] theorem discardFrame_ep_miso : (discardFrame s).ep.miso = s.ep.miso := rfl

/-! ### holdPending -/

@[simp] theorem holdPending_service : (holdPending s).service = s.service := rfl
@[simp] theorem holdPending_resetHeld : (holdPending s).resetHeld = s.resetHeld := rfl
@[simp] theorem holdPending_config : (holdPending s).config = s.config := rfl
@[simp] theorem holdPending_ds : (holdPending s).ds = s.ds := rfl
@[simp] theorem holdPending_wg : (holdPending s).wg = s.wg := rfl
@[simp] theorem holdPending_lm : (holdPending s).lm = s.lm := rfl
@[simp] theorem holdPending_cs : (holdPending s).cs = s.cs := rfl
@[simp] theorem holdPending_ec : (holdPending s).ec = s.ec := rfl
@[simp] theorem holdPending_qt : (holdPending s).qt = s.qt := rfl
@[simp] theorem holdPending_re : (holdPending s).re = s.re := rfl
@[simp] theorem holdPending_fe : (holdPending s).fe = s.fe := rfl
@[simp] theorem holdPending_eu : (holdPending s).eu = s.eu := rfl
@[simp] theorem holdPending_kl : (holdPending s).kl = s.kl := rfl
@[simp] theorem holdPending_pending : (holdPending s).pending = s.pending := rfl
@[simp] theorem holdPending_ep_forming : (holdPending s).ep.forming = s.ep.forming := rfl
@[simp] theorem holdPending_ep_discarded : (holdPending s).ep.discarded = s.ep.discarded := rfl
@[simp] theorem holdPending_ep_flags : (holdPending s).ep.flags = s.ep.flags := rfl
@[simp] theorem holdPending_ep_mask : (holdPending s).ep.mask = s.ep.mask := rfl
@[simp] theorem holdPending_ep_miso : (holdPending s).ep.miso = s.ep.miso := rfl

/-! ### holdReset -/

@[simp] theorem holdReset_service : (holdReset s).service = s.service := rfl
@[simp] theorem holdReset_config : (holdReset s).config = s.config := rfl
@[simp] theorem holdReset_ds : (holdReset s).ds = s.ds := rfl
@[simp] theorem holdReset_wg : (holdReset s).wg = s.wg := rfl
@[simp] theorem holdReset_lm : (holdReset s).lm = s.lm := rfl
@[simp] theorem holdReset_cs : (holdReset s).cs = s.cs := rfl
@[simp] theorem holdReset_ec : (holdReset s).ec = s.ec := rfl
@[simp] theorem holdReset_qt : (holdReset s).qt = s.qt := rfl
@[simp] theorem holdReset_re : (holdReset s).re = s.re := rfl
@[simp] theorem holdReset_fe : (holdReset s).fe = s.fe := rfl
@[simp] theorem holdReset_eu : (holdReset s).eu = s.eu := rfl
@[simp] theorem holdReset_kl : (holdReset s).kl = s.kl := rfl
@[simp] theorem holdReset_ep : (holdReset s).ep = s.ep := rfl
@[simp] theorem holdReset_pending : (holdReset s).pending = s.pending := rfl

/-! ### What the updates write -/

@[simp] theorem raiseFlag_ep_flags (f : AttnFlags) : (raiseFlag f s).ep.flags = s.ep.flags ||| f := rfl
@[simp] theorem clearFlags_ep_flags (f : AttnFlags) : (clearFlags f s).ep.flags = s.ep.flags &&& ~~~f := rfl
@[simp] theorem withRouteWork_re_work (w : RouteWork) : (withRouteWork w s).re.work = some w := rfl
@[simp] theorem routeIdle_re_work : (routeIdle s).re.work = none := rfl
@[simp] theorem withFindWork_fe_work (w : FindWork) : (withFindWork w s).fe.work = some w := rfl
@[simp] theorem findIdle_fe_work : (findIdle s).fe.work = none := rfl
@[simp] theorem withWork_ec_work (w : TurnWork) : (withWork w s).ec.work = w := rfl
@[simp] theorem startBuild_eu_unit : (startBuild s).eu.unit = .building := rfl
@[simp] theorem startBuild_eu_tree : (startBuild s).eu.tree = beginTree s.wg := rfl
@[simp] theorem driveMiso_ep_miso (bytes : List Byte) : (driveMiso bytes s).ep.miso = bytes := rfl
@[simp] theorem discardFrame_ep_discarded : (discardFrame s).ep.discarded = true := rfl
@[simp] theorem discardFrame_ep_reply : (discardFrame s).ep.reply = { s.ep.reply with overrun := true } := rfl
@[simp] theorem holdPending_ep_reply :
    (holdPending s).ep.reply = { s.ep.reply with status := .pending, data := [] } := rfl
@[simp] theorem holdReset_resetHeld : (holdReset s).resetHeld = true := rfl
@[simp] theorem updateEntry_qt (a : Addr) (tag : Tag) (f : QueryEntry → QueryEntry) :
    (updateEntry a tag f s).qt.entries = s.qt.entries.map fun e => if isEntry a tag e then f e else e := rfl
@[simp] theorem dropEntry_qt (a : Addr) (tag : Tag) :
    (dropEntry a tag s).qt.entries = s.qt.entries.filter fun e => !isEntry a tag e := rfl

end Sys2Proof.Laws
end

