-- ==== Sys2Proof/Laws/Banks.lean ====
section
/-! SUPPORT. Reading a station record or a trunk after each operation on the banks of records, and the numbering of
stations. -/

namespace Sys2Proof.Laws
open Sys2Proof.Machine

/-! ### Numbering -/

@[simp] theorem trunkOf_addrOf (t : TrunkNo) (n : StationNo) : trunkOf (addrOf t n) = t := by
  apply Fin.ext; simp only [trunkOf, addrOf]; omega

@[simp] theorem stationOf_addrOf (t : TrunkNo) (n : StationNo) : stationOf (addrOf t n) = n := by
  apply Fin.ext; simp only [stationOf, addrOf]; omega

@[simp] theorem addrOf_trunkOf (a : Addr) : addrOf (trunkOf a) (stationOf a) = a := by
  apply Fin.ext; simp only [trunkOf, stationOf, addrOf]; omega

/-! ### Banks -/

@[simp] theorem mapBank_get {α β : Type} {n : Nat} (f : Fin n → α → β) (v : Vector α n) (i : Fin n) :
    (mapBank f v)[i] = f i v[i] := by
  simp [mapBank, Vector.getElem_mk]

variable (s : State)

@[simp] theorem stationAt_putStation_same (a : Addr) (st : Station) : stationAt (putStation a st s) a = st := by
  simp [stationAt, putStation]

theorem stationAt_putStation_other {a b : Addr} (st : Station) (h : b ≠ a) :
    stationAt (putStation a st s) b = stationAt s b := by
  have : a.val ≠ b.val := fun e => h (Fin.ext e.symm)
  simp [stationAt, putStation, this]

@[simp] theorem stationAt_updateStation_same (a : Addr) (f : Station → Station) :
    stationAt (updateStation a f s) a = f (stationAt s a) := by simp [updateStation]

theorem stationAt_updateStation_other {a b : Addr} (f : Station → Station) (h : b ≠ a) :
    stationAt (updateStation a f s) b = stationAt s b := stationAt_putStation_other s _ h

/-- The record of any station after an update at one. -/
theorem stationAt_updateStation (a b : Addr) (f : Station → Station) :
    stationAt (updateStation a f s) b = if b = a then f (stationAt s b) else stationAt s b := by
  split
  · subst_vars; simp
  · exact stationAt_updateStation_other s f ‹_›

@[simp] theorem stationAt_mapStations (f : Addr → Station → Station) (a : Addr) :
    stationAt (mapStations f s) a = f a (stationAt s a) := mapBank_get f s.kl.stations a

@[simp] theorem stationAt_putTrunk (t : TrunkNo) (k : Trunk) (a : Addr) :
    stationAt (putTrunk t k s) a = stationAt s a := rfl

@[simp] theorem stationAt_updateTrunk (t : TrunkNo) (f : Trunk → Trunk) (a : Addr) :
    stationAt (updateTrunk t f s) a = stationAt s a := rfl

@[simp] theorem stationAt_raiseFlag (f : AttnFlags) (a : Addr) : stationAt (raiseFlag f s) a = stationAt s a := rfl

@[simp] theorem trunkAt_putTrunk_same (t : TrunkNo) (k : Trunk) : trunkAt (putTrunk t k s) t = k := by
  simp [trunkAt, putTrunk]

theorem trunkAt_putTrunk_other {t u : TrunkNo} (k : Trunk) (h : u ≠ t) : trunkAt (putTrunk t k s) u = trunkAt s u := by
  have : t.val ≠ u.val := fun e => h (Fin.ext e.symm)
  simp [trunkAt, putTrunk, this]

@[simp] theorem trunkAt_updateTrunk_same (t : TrunkNo) (f : Trunk → Trunk) :
    trunkAt (updateTrunk t f s) t = f (trunkAt s t) := by simp [updateTrunk]

theorem trunkAt_updateTrunk_other {t u : TrunkNo} (f : Trunk → Trunk) (h : u ≠ t) :
    trunkAt (updateTrunk t f s) u = trunkAt s u := trunkAt_putTrunk_other s _ h

@[simp] theorem trunkAt_putStation (a : Addr) (st : Station) (t : TrunkNo) :
    trunkAt (putStation a st s) t = trunkAt s t := rfl

@[simp] theorem trunkAt_updateStation (a : Addr) (f : Station → Station) (t : TrunkNo) :
    trunkAt (updateStation a f s) t = trunkAt s t := rfl

@[simp] theorem trunkAt_mapStations (f : Addr → Station → Station) (t : TrunkNo) :
    trunkAt (mapStations f s) t = trunkAt s t := rfl

@[simp] theorem trunkAt_raiseFlag (f : AttnFlags) (t : TrunkNo) : trunkAt (raiseFlag f s) t = trunkAt s t := rfl

end Sys2Proof.Laws
end

