-- ==== Sys2Proof/Laws/Frames.lean ====
section
/-! SUPPORT. What each shared operation leaves as it was: one lemma for each, for the provers to cite. -/

namespace Sys2Proof.Laws
open Sys2Proof.Machine

variable (s : State)

@[simp] theorem startTurn_frame (ec : EpochController) :
    (startTurn ec).turn = .draining ∧ (startTurn ec).wanted = (ec.wanted || ec.expiring) ∧
    (startTurn ec).expiring = false ∧ (startTurn ec).epoch = ec.epoch ∧ (startTurn ec).rollover = ec.rollover ∧
    (startTurn ec).countdown = ec.countdown ∧ (startTurn ec).report = ec.report ∧ (startTurn ec).work = ec.work := by
  simp [startTurn]

@[simp] theorem startWanted_frame (ec : EpochController) :
    (startWanted ec).turn = .draining ∧ (startWanted ec).wanted = false ∧ (startWanted ec).expiring = false ∧
    (startWanted ec).epoch = ec.epoch ∧ (startWanted ec).rollover = ec.rollover ∧
    (startWanted ec).countdown = ec.countdown ∧ (startWanted ec).report = ec.report ∧
    (startWanted ec).work = ec.work := by
  simp [startWanted]

/-- A turn request touches the turn state, turn-wanted and a waiting expiry alone. -/
@[simp] theorem requestTurn_frame :
    (requestTurn s).service = s.service ∧ (requestTurn s).resetHeld = s.resetHeld ∧
    (requestTurn s).config = s.config ∧ (requestTurn s).ds = s.ds ∧ (requestTurn s).wg = s.wg ∧
    (requestTurn s).lm = s.lm ∧ (requestTurn s).cs = s.cs ∧ (requestTurn s).qt = s.qt ∧
    (requestTurn s).re = s.re ∧ (requestTurn s).fe = s.fe ∧ (requestTurn s).eu = s.eu ∧
    (requestTurn s).kl = s.kl ∧ (requestTurn s).ep = s.ep ∧ (requestTurn s).pending = s.pending ∧
    (requestTurn s).ec.epoch = s.ec.epoch ∧ (requestTurn s).ec.rollover = s.ec.rollover ∧
    (requestTurn s).ec.countdown = s.ec.countdown ∧
    (requestTurn s).ec.report = s.ec.report ∧ (requestTurn s).ec.work = s.ec.work := by
  unfold requestTurn
  split <;> (try split) <;> simp

/-- A turn request that is made or not. -/
@[simp] theorem requestIf_frame (w : Bool) :
    (requestIf w s).service = s.service ∧ (requestIf w s).resetHeld = s.resetHeld ∧
    (requestIf w s).config = s.config ∧ (requestIf w s).ds = s.ds ∧ (requestIf w s).wg = s.wg ∧
    (requestIf w s).lm = s.lm ∧ (requestIf w s).cs = s.cs ∧ (requestIf w s).qt = s.qt ∧
    (requestIf w s).re = s.re ∧ (requestIf w s).fe = s.fe ∧ (requestIf w s).eu = s.eu ∧
    (requestIf w s).kl = s.kl ∧ (requestIf w s).ep = s.ep ∧ (requestIf w s).pending = s.pending ∧
    (requestIf w s).ec.epoch = s.ec.epoch ∧ (requestIf w s).ec.rollover = s.ec.rollover ∧
    (requestIf w s).ec.countdown = s.ec.countdown ∧
    (requestIf w s).ec.report = s.ec.report ∧ (requestIf w s).ec.work = s.ec.work := by
  unfold requestIf
  split <;> simp

/-- Raising groups touches the station records alone. -/
@[simp] theorem raiseGroups_frame (g : Groups) :
    (raiseGroups g s).service = s.service ∧ (raiseGroups g s).resetHeld = s.resetHeld ∧
    (raiseGroups g s).config = s.config ∧ (raiseGroups g s).ds = s.ds ∧ (raiseGroups g s).wg = s.wg ∧
    (raiseGroups g s).lm = s.lm ∧ (raiseGroups g s).cs = s.cs ∧ (raiseGroups g s).ec = s.ec ∧
    (raiseGroups g s).qt = s.qt ∧ (raiseGroups g s).re = s.re ∧ (raiseGroups g s).fe = s.fe ∧
    (raiseGroups g s).eu = s.eu ∧ (raiseGroups g s).ep = s.ep ∧ (raiseGroups g s).pending = s.pending ∧
    (raiseGroups g s).kl.trunks = s.kl.trunks := by
  simp [raiseGroups]

/-- A change of state touches its station record and STATION_CHANGE alone. -/
@[simp] theorem changeState_frame (a : Addr) (x : StationState) :
    (changeState a x s).service = s.service ∧ (changeState a x s).resetHeld = s.resetHeld ∧
    (changeState a x s).config = s.config ∧ (changeState a x s).ds = s.ds ∧ (changeState a x s).wg = s.wg ∧
    (changeState a x s).lm = s.lm ∧ (changeState a x s).cs = s.cs ∧ (changeState a x s).ec = s.ec ∧
    (changeState a x s).qt = s.qt ∧ (changeState a x s).re = s.re ∧ (changeState a x s).fe = s.fe ∧
    (changeState a x s).eu = s.eu ∧ (changeState a x s).pending = s.pending ∧
    (changeState a x s).kl.trunks = s.kl.trunks ∧ (changeState a x s).ep.reply = s.ep.reply ∧
    (changeState a x s).ep.forming = s.ep.forming ∧ (changeState a x s).ep.discarded = s.ep.discarded ∧
    (changeState a x s).ep.mask = s.ep.mask ∧ (changeState a x s).ep.miso = s.ep.miso := by
  unfold changeState
  split <;> simp

/-- Freeing an entry touches the table and one answer queue alone. -/
@[simp] theorem freeEntry_frame (e : QueryEntry) :
    (freeEntry e s).service = s.service ∧ (freeEntry e s).resetHeld = s.resetHeld ∧
    (freeEntry e s).config = s.config ∧ (freeEntry e s).ds = s.ds ∧ (freeEntry e s).wg = s.wg ∧
    (freeEntry e s).lm = s.lm ∧ (freeEntry e s).cs = s.cs ∧ (freeEntry e s).ec = s.ec ∧
    (freeEntry e s).re = s.re ∧ (freeEntry e s).fe = s.fe ∧ (freeEntry e s).eu = s.eu ∧
    (freeEntry e s).ep = s.ep ∧ (freeEntry e s).pending = s.pending ∧ (freeEntry e s).kl.trunks = s.kl.trunks := by
  simp [freeEntry]

/-- Freeing a halted entry touches the table and one answer queue alone. -/
@[simp] theorem freeHalted_frame (e : QueryEntry) (c : HaltCause) :
    (freeHalted e c s).service = s.service ∧ (freeHalted e c s).resetHeld = s.resetHeld ∧
    (freeHalted e c s).config = s.config ∧ (freeHalted e c s).ds = s.ds ∧ (freeHalted e c s).wg = s.wg ∧
    (freeHalted e c s).lm = s.lm ∧ (freeHalted e c s).cs = s.cs ∧ (freeHalted e c s).ec = s.ec ∧
    (freeHalted e c s).re = s.re ∧ (freeHalted e c s).fe = s.fe ∧ (freeHalted e c s).eu = s.eu ∧
    (freeHalted e c s).ep = s.ep ∧ (freeHalted e c s).pending = s.pending ∧
    (freeHalted e c s).kl.trunks = s.kl.trunks := by
  unfold freeHalted
  split <;> (try split) <;> simp [freeEntry]

/-- Completing an entry touches the table and one answer queue alone. -/
@[simp] theorem completeEntry_frame (a : Addr) (tag : Tag) (x : Answer) (m : Downstream) :
    (completeEntry a tag x m s).service = s.service ∧ (completeEntry a tag x m s).resetHeld = s.resetHeld ∧
    (completeEntry a tag x m s).config = s.config ∧ (completeEntry a tag x m s).ds = s.ds ∧
    (completeEntry a tag x m s).wg = s.wg ∧ (completeEntry a tag x m s).lm = s.lm ∧
    (completeEntry a tag x m s).cs = s.cs ∧ (completeEntry a tag x m s).ec = s.ec ∧
    (completeEntry a tag x m s).re = s.re ∧ (completeEntry a tag x m s).fe = s.fe ∧
    (completeEntry a tag x m s).eu = s.eu ∧ (completeEntry a tag x m s).ep = s.ep ∧
    (completeEntry a tag x m s).pending = s.pending ∧ (completeEntry a tag x m s).kl.trunks = s.kl.trunks := by
  unfold completeEntry
  split <;> simp

/-- Evacuation entry at one entry touches the table and one answer queue alone. -/
@[simp] theorem evacuateEntry_frame (e : QueryEntry) :
    (evacuateEntry e s).service = s.service ∧ (evacuateEntry e s).resetHeld = s.resetHeld ∧
    (evacuateEntry e s).config = s.config ∧ (evacuateEntry e s).ds = s.ds ∧ (evacuateEntry e s).wg = s.wg ∧
    (evacuateEntry e s).lm = s.lm ∧ (evacuateEntry e s).cs = s.cs ∧ (evacuateEntry e s).ec = s.ec ∧
    (evacuateEntry e s).re = s.re ∧ (evacuateEntry e s).fe = s.fe ∧ (evacuateEntry e s).eu = s.eu ∧
    (evacuateEntry e s).ep = s.ep ∧ (evacuateEntry e s).pending = s.pending ∧
    (evacuateEntry e s).kl.trunks = s.kl.trunks := by
  unfold evacuateEntry
  split <;> simp

/-- The route arbiter touches the table and its engine alone. -/
@[simp] theorem grantRoute_frame :
    (grantRoute s).service = s.service ∧ (grantRoute s).resetHeld = s.resetHeld ∧
    (grantRoute s).config = s.config ∧ (grantRoute s).ds = s.ds ∧ (grantRoute s).wg = s.wg ∧
    (grantRoute s).lm = s.lm ∧ (grantRoute s).cs = s.cs ∧ (grantRoute s).ec = s.ec ∧ (grantRoute s).fe = s.fe ∧
    (grantRoute s).eu = s.eu ∧ (grantRoute s).kl = s.kl ∧ (grantRoute s).ep = s.ep ∧
    (grantRoute s).pending = s.pending := by
  unfold grantRoute
  repeat' split
  all_goals simp

/-- The find arbiter touches the table and its engine alone. -/
@[simp] theorem grantFind_frame :
    (grantFind s).service = s.service ∧ (grantFind s).resetHeld = s.resetHeld ∧
    (grantFind s).config = s.config ∧ (grantFind s).ds = s.ds ∧ (grantFind s).wg = s.wg ∧
    (grantFind s).lm = s.lm ∧ (grantFind s).cs = s.cs ∧ (grantFind s).ec = s.ec ∧ (grantFind s).re = s.re ∧
    (grantFind s).eu = s.eu ∧ (grantFind s).kl = s.kl ∧ (grantFind s).ep = s.ep ∧
    (grantFind s).pending = s.pending := by
  unfold grantFind
  repeat' split
  all_goals simp

/-- The arbiters touch the table and the engines alone. -/
@[simp] theorem grant_frame :
    (grant s).service = s.service ∧ (grant s).resetHeld = s.resetHeld ∧ (grant s).config = s.config ∧
    (grant s).ds = s.ds ∧ (grant s).wg = s.wg ∧ (grant s).lm = s.lm ∧ (grant s).cs = s.cs ∧
    (grant s).ec = s.ec ∧ (grant s).eu = s.eu ∧ (grant s).kl = s.kl ∧ (grant s).ep = s.ep ∧
    (grant s).pending = s.pending := by
  simp [grant]

/-- A build that begins touches the unit and its tree alone. -/
@[simp] theorem beginBuildIfDue_frame :
    (beginBuildIfDue s).service = s.service ∧ (beginBuildIfDue s).resetHeld = s.resetHeld ∧
    (beginBuildIfDue s).config = s.config ∧ (beginBuildIfDue s).ds = s.ds ∧ (beginBuildIfDue s).wg = s.wg ∧
    (beginBuildIfDue s).lm = s.lm ∧ (beginBuildIfDue s).cs = s.cs ∧ (beginBuildIfDue s).ec = s.ec ∧
    (beginBuildIfDue s).qt = s.qt ∧ (beginBuildIfDue s).re = s.re ∧ (beginBuildIfDue s).fe = s.fe ∧
    (beginBuildIfDue s).kl = s.kl ∧ (beginBuildIfDue s).ep = s.ep ∧ (beginBuildIfDue s).pending = s.pending ∧
    (beginBuildIfDue s).eu.asserted = s.eu.asserted ∧ (beginBuildIfDue s).eu.differing = s.eu.differing ∧
    (beginBuildIfDue s).eu.latch = s.eu.latch := by
  unfold beginBuildIfDue whenever
  split <;> simp

/-- What follows the route engine becoming idle. -/
@[simp] theorem afterRouteIdle_frame :
    (afterRouteIdle s).service = s.service ∧ (afterRouteIdle s).resetHeld = s.resetHeld ∧
    (afterRouteIdle s).config = s.config ∧ (afterRouteIdle s).ds = s.ds ∧ (afterRouteIdle s).wg = s.wg ∧
    (afterRouteIdle s).lm = s.lm ∧ (afterRouteIdle s).cs = s.cs ∧ (afterRouteIdle s).ec = s.ec ∧
    (afterRouteIdle s).kl = s.kl ∧ (afterRouteIdle s).ep = s.ep ∧ (afterRouteIdle s).pending = s.pending ∧
    (afterRouteIdle s).eu.asserted = s.eu.asserted ∧ (afterRouteIdle s).eu.differing = s.eu.differing ∧
    (afterRouteIdle s).eu.latch = s.eu.latch := by
  simp [afterRouteIdle]

/-- What follows the end of a build. -/
@[simp] theorem afterBuild_frame :
    (afterBuild s).service = s.service ∧ (afterBuild s).resetHeld = s.resetHeld ∧
    (afterBuild s).config = s.config ∧ (afterBuild s).ds = s.ds ∧ (afterBuild s).wg = s.wg ∧
    (afterBuild s).lm = s.lm ∧ (afterBuild s).cs = s.cs ∧ (afterBuild s).eu = s.eu ∧ (afterBuild s).kl = s.kl ∧
    (afterBuild s).ep = s.ep ∧ (afterBuild s).pending = s.pending ∧ (afterBuild s).ec.epoch = s.ec.epoch ∧
    (afterBuild s).ec.rollover = s.ec.rollover ∧ (afterBuild s).ec.countdown = s.ec.countdown ∧
    (afterBuild s).ec.report = s.ec.report ∧ (afterBuild s).ec.work = s.ec.work := by
  unfold afterBuild
  split <;> simp

/-- A leaving touches the station record and the table alone. -/
@[simp] theorem leave_frame (a : Addr) :
    (leave a s).service = s.service ∧ (leave a s).resetHeld = s.resetHeld ∧ (leave a s).config = s.config ∧
    (leave a s).ds = s.ds ∧ (leave a s).wg = s.wg ∧ (leave a s).lm = s.lm ∧ (leave a s).cs = s.cs ∧
    (leave a s).ec = s.ec ∧ (leave a s).re = s.re ∧ (leave a s).fe = s.fe ∧ (leave a s).eu = s.eu ∧
    (leave a s).ep = s.ep ∧ (leave a s).pending = s.pending ∧ (leave a s).kl.trunks = s.kl.trunks := by
  unfold leave
  split <;> simp

/-- A departure touches the station record, the table and STATION_CHANGE alone. -/
@[simp] theorem depart_frame (a : Addr) (x : StationState) :
    (depart a x s).service = s.service ∧ (depart a x s).resetHeld = s.resetHeld ∧
    (depart a x s).config = s.config ∧ (depart a x s).ds = s.ds ∧ (depart a x s).wg = s.wg ∧
    (depart a x s).lm = s.lm ∧ (depart a x s).cs = s.cs ∧ (depart a x s).ec = s.ec ∧ (depart a x s).re = s.re ∧
    (depart a x s).fe = s.fe ∧ (depart a x s).eu = s.eu ∧ (depart a x s).pending = s.pending ∧
    (depart a x s).kl.trunks = s.kl.trunks ∧ (depart a x s).ep.reply = s.ep.reply ∧
    (depart a x s).ep.forming = s.ep.forming ∧ (depart a x s).ep.discarded = s.ep.discarded ∧
    (depart a x s).ep.mask = s.ep.mask ∧ (depart a x s).ep.miso = s.ep.miso := by
  simp [depart]

/-- Voiding an exchange touches its trunk alone. -/
@[simp] theorem voidExchange_frame (a : Addr) :
    (voidExchange a s).service = s.service ∧ (voidExchange a s).resetHeld = s.resetHeld ∧
    (voidExchange a s).config = s.config ∧ (voidExchange a s).ds = s.ds ∧ (voidExchange a s).wg = s.wg ∧
    (voidExchange a s).lm = s.lm ∧ (voidExchange a s).cs = s.cs ∧ (voidExchange a s).ec = s.ec ∧
    (voidExchange a s).qt = s.qt ∧ (voidExchange a s).re = s.re ∧ (voidExchange a s).fe = s.fe ∧
    (voidExchange a s).eu = s.eu ∧ (voidExchange a s).ep = s.ep ∧ (voidExchange a s).pending = s.pending ∧
    (voidExchange a s).kl.stations = s.kl.stations := by
  simp [voidExchange]

/-- A miss touches the station record, and by a departure the table and STATION_CHANGE. -/
@[simp] theorem miss_frame (m : Nat) (a : Addr) :
    (miss m a s).service = s.service ∧ (miss m a s).resetHeld = s.resetHeld ∧ (miss m a s).config = s.config ∧
    (miss m a s).ds = s.ds ∧ (miss m a s).wg = s.wg ∧ (miss m a s).lm = s.lm ∧ (miss m a s).cs = s.cs ∧
    (miss m a s).ec = s.ec ∧ (miss m a s).re = s.re ∧ (miss m a s).fe = s.fe ∧ (miss m a s).eu = s.eu ∧
    (miss m a s).pending = s.pending ∧ (miss m a s).kl.trunks = s.kl.trunks ∧
    (miss m a s).ep.reply = s.ep.reply ∧ (miss m a s).ep.forming = s.ep.forming ∧
    (miss m a s).ep.discarded = s.ep.discarded ∧ (miss m a s).ep.mask = s.ep.mask ∧
    (miss m a s).ep.miso = s.ep.miso := by
  unfold miss
  repeat' split
  all_goals simp

/-- A reading touches the Load Monitor and CONGESTION_ALARM alone. -/
@[simp] theorem takePair_frame (n q : Nat) :
    (takePair n q s).service = s.service ∧ (takePair n q s).resetHeld = s.resetHeld ∧
    (takePair n q s).config = s.config ∧ (takePair n q s).ds = s.ds ∧ (takePair n q s).wg = s.wg ∧
    (takePair n q s).cs = s.cs ∧ (takePair n q s).ec = s.ec ∧ (takePair n q s).qt = s.qt ∧
    (takePair n q s).re = s.re ∧ (takePair n q s).fe = s.fe ∧ (takePair n q s).eu = s.eu ∧
    (takePair n q s).kl = s.kl ∧ (takePair n q s).pending = s.pending ∧
    (takePair n q s).ep.reply = s.ep.reply ∧ (takePair n q s).ep.forming = s.ep.forming ∧
    (takePair n q s).ep.discarded = s.ep.discarded ∧ (takePair n q s).ep.mask = s.ep.mask ∧
    (takePair n q s).ep.miso = s.ep.miso := by
  unfold takePair
  repeat' split
  all_goals (try simp)
  all_goals (repeat' split)
  all_goals simp

/-- A pass touches the Change Stage and SCHEDULE_DUE alone. -/
@[simp] theorem passOf_frame (f : Scheduled → Bool) :
    (passOf f s).1.service = s.service ∧ (passOf f s).1.resetHeld = s.resetHeld ∧
    (passOf f s).1.config = s.config ∧ (passOf f s).1.ds = s.ds ∧ (passOf f s).1.wg = s.wg ∧
    (passOf f s).1.lm = s.lm ∧ (passOf f s).1.ec = s.ec ∧ (passOf f s).1.qt = s.qt ∧ (passOf f s).1.re = s.re ∧
    (passOf f s).1.fe = s.fe ∧ (passOf f s).1.eu = s.eu ∧ (passOf f s).1.kl = s.kl ∧
    (passOf f s).1.pending = s.pending ∧ (passOf f s).1.ep.reply = s.ep.reply ∧
    (passOf f s).1.ep.forming = s.ep.forming ∧ (passOf f s).1.ep.discarded = s.ep.discarded ∧
    (passOf f s).1.ep.mask = s.ep.mask ∧ (passOf f s).1.ep.miso = s.ep.miso := by
  unfold passOf
  dsimp only
  split <;> simp

/-- The DUE pass touches the Change Stage and SCHEDULE_DUE alone. -/
@[simp] theorem duePass_frame :
    (duePass s).1.service = s.service ∧ (duePass s).1.resetHeld = s.resetHeld ∧
    (duePass s).1.config = s.config ∧ (duePass s).1.ds = s.ds ∧ (duePass s).1.wg = s.wg ∧
    (duePass s).1.lm = s.lm ∧ (duePass s).1.ec = s.ec ∧ (duePass s).1.qt = s.qt ∧ (duePass s).1.re = s.re ∧
    (duePass s).1.fe = s.fe ∧ (duePass s).1.eu = s.eu ∧ (duePass s).1.kl = s.kl ∧
    (duePass s).1.pending = s.pending ∧ (duePass s).1.ep.reply = s.ep.reply ∧
    (duePass s).1.ep.forming = s.ep.forming ∧ (duePass s).1.ep.discarded = s.ep.discarded ∧
    (duePass s).1.ep.mask = s.ep.mask ∧ (duePass s).1.ep.miso = s.ep.miso := by
  simp [duePass]

/-- Serving the schedule touches the Change Stage and SCHEDULE_DUE alone. -/
@[simp] theorem serveSchedule_frame (f : Nat → Bool) :
    (serveSchedule f s).1.service = s.service ∧ (serveSchedule f s).1.resetHeld = s.resetHeld ∧
    (serveSchedule f s).1.config = s.config ∧ (serveSchedule f s).1.ds = s.ds ∧
    (serveSchedule f s).1.wg = s.wg ∧ (serveSchedule f s).1.lm = s.lm ∧ (serveSchedule f s).1.ec = s.ec ∧
    (serveSchedule f s).1.qt = s.qt ∧ (serveSchedule f s).1.re = s.re ∧ (serveSchedule f s).1.fe = s.fe ∧
    (serveSchedule f s).1.eu = s.eu ∧ (serveSchedule f s).1.kl = s.kl ∧
    (serveSchedule f s).1.pending = s.pending ∧ (serveSchedule f s).1.ep.reply = s.ep.reply ∧
    (serveSchedule f s).1.ep.forming = s.ep.forming ∧ (serveSchedule f s).1.ep.discarded = s.ep.discarded ∧
    (serveSchedule f s).1.ep.mask = s.ep.mask ∧ (serveSchedule f s).1.ep.miso = s.ep.miso := by
  simp [serveSchedule]

/-- A minute event touches the Change Stage, the Epoch Controller and SCHEDULE_DUE alone. -/
@[simp] theorem minuteEvent_frame :
    (minuteEvent s).service = s.service ∧ (minuteEvent s).resetHeld = s.resetHeld ∧
    (minuteEvent s).config = s.config ∧ (minuteEvent s).ds = s.ds ∧ (minuteEvent s).wg = s.wg ∧
    (minuteEvent s).lm = s.lm ∧ (minuteEvent s).qt = s.qt ∧ (minuteEvent s).re = s.re ∧
    (minuteEvent s).fe = s.fe ∧ (minuteEvent s).eu = s.eu ∧ (minuteEvent s).kl = s.kl ∧
    (minuteEvent s).pending = s.pending ∧ (minuteEvent s).ep.reply = s.ep.reply ∧
    (minuteEvent s).ep.forming = s.ep.forming ∧ (minuteEvent s).ep.discarded = s.ep.discarded ∧
    (minuteEvent s).ep.mask = s.ep.mask ∧ (minuteEvent s).ep.miso = s.ep.miso := by
  simp [minuteEvent]

/-- SET TIME touches the Change Stage, the Epoch Controller and SCHEDULE_DUE alone. -/
@[simp] theorem setTime_frame (n : Nat) :
    (setTime n s).service = s.service ∧ (setTime n s).resetHeld = s.resetHeld ∧
    (setTime n s).config = s.config ∧ (setTime n s).ds = s.ds ∧ (setTime n s).wg = s.wg ∧
    (setTime n s).lm = s.lm ∧ (setTime n s).qt = s.qt ∧ (setTime n s).re = s.re ∧ (setTime n s).fe = s.fe ∧
    (setTime n s).eu = s.eu ∧ (setTime n s).kl = s.kl ∧ (setTime n s).pending = s.pending ∧
    (setTime n s).ep.reply = s.ep.reply ∧ (setTime n s).ep.forming = s.ep.forming ∧
    (setTime n s).ep.discarded = s.ep.discarded ∧ (setTime n s).ep.mask = s.ep.mask ∧
    (setTime n s).ep.miso = s.ep.miso := by
  unfold setTime
  dsimp only
  split <;> simp

/-- An applied edit touches the configuration, the two stores and the Load Monitor alone. -/
@[simp] theorem applyEdit_frame (x : Edit) :
    (applyEdit x s).1.service = s.service ∧ (applyEdit x s).1.resetHeld = s.resetHeld ∧
    (applyEdit x s).1.cs = s.cs ∧ (applyEdit x s).1.ec = s.ec ∧ (applyEdit x s).1.qt = s.qt ∧
    (applyEdit x s).1.re = s.re ∧ (applyEdit x s).1.fe = s.fe ∧ (applyEdit x s).1.eu = s.eu ∧
    (applyEdit x s).1.kl = s.kl ∧ (applyEdit x s).1.ep = s.ep ∧ (applyEdit x s).1.pending = s.pending := by
  cases x <;> simp only [applyEdit, applyPutListing, applySetStatus, applyPutNode, applyPutSegment,
    applySetSegmentState, applyRemoveSegment, applySetExit]
  all_goals (try split)
  all_goals simp

/-! ### Operations made of a fold -/

/-- A fold of steps that each leave a part of the state alone leaves it alone. -/
theorem foldl_frame {α β : Type} (p : State → β) (f : State → α → State) (h : ∀ t x, p (f t x) = p t) (l : List α) :
    p (l.foldl f s) = p s := by
  induction l generalizing s with
  | nil => rfl
  | cons x l ih => rw [List.foldl_cons, ih, h]

/-- Evacuation entry touches the table and the answer queues alone. -/
@[simp] theorem evacuateEntries_frame :
    (evacuateEntries s).service = s.service ∧ (evacuateEntries s).resetHeld = s.resetHeld ∧
    (evacuateEntries s).config = s.config ∧ (evacuateEntries s).ds = s.ds ∧ (evacuateEntries s).wg = s.wg ∧
    (evacuateEntries s).lm = s.lm ∧ (evacuateEntries s).cs = s.cs ∧ (evacuateEntries s).ec = s.ec ∧
    (evacuateEntries s).re = s.re ∧ (evacuateEntries s).fe = s.fe ∧ (evacuateEntries s).eu = s.eu ∧
    (evacuateEntries s).ep = s.ep ∧ (evacuateEntries s).pending = s.pending ∧
    (evacuateEntries s).kl.trunks = s.kl.trunks := by
  unfold evacuateEntries
  generalize List.filter _ _ = l
  induction l generalizing s with
  | nil => simp
  | cons e l ih => simpa using ih (evacuateEntry e s)

/-- The pairs of a LOAD touch the Load Monitor and CONGESTION_ALARM alone. -/
@[simp] theorem takePairs_frame (l : List (Nat × Nat)) :
    (takePairs l s).service = s.service ∧ (takePairs l s).resetHeld = s.resetHeld ∧
    (takePairs l s).config = s.config ∧ (takePairs l s).ds = s.ds ∧ (takePairs l s).wg = s.wg ∧
    (takePairs l s).cs = s.cs ∧ (takePairs l s).ec = s.ec ∧ (takePairs l s).qt = s.qt ∧
    (takePairs l s).re = s.re ∧ (takePairs l s).fe = s.fe ∧ (takePairs l s).eu = s.eu ∧
    (takePairs l s).kl = s.kl ∧ (takePairs l s).pending = s.pending ∧ (takePairs l s).ep.reply = s.ep.reply ∧
    (takePairs l s).ep.forming = s.ep.forming ∧ (takePairs l s).ep.discarded = s.ep.discarded ∧
    (takePairs l s).ep.mask = s.ep.mask ∧ (takePairs l s).ep.miso = s.ep.miso := by
  induction l generalizing s with
  | nil => simp [takePairs]
  | cons x l ih => simpa [takePairs] using ih (takePair x.1 x.2 s)

/-- An evacuation entry touches the unit, the table, the station records and EVAC_CHANGE alone. -/
@[simp] theorem evacuationEntry_frame :
    (evacuationEntry s).service = s.service ∧ (evacuationEntry s).resetHeld = s.resetHeld ∧
    (evacuationEntry s).config = s.config ∧ (evacuationEntry s).ds = s.ds ∧ (evacuationEntry s).wg = s.wg ∧
    (evacuationEntry s).lm = s.lm ∧ (evacuationEntry s).cs = s.cs ∧ (evacuationEntry s).ec = s.ec ∧
    (evacuationEntry s).re = s.re ∧ (evacuationEntry s).fe = s.fe ∧ (evacuationEntry s).pending = s.pending ∧
    (evacuationEntry s).kl.trunks = s.kl.trunks ∧ (evacuationEntry s).eu.asserted = s.eu.asserted ∧
    (evacuationEntry s).eu.differing = s.eu.differing ∧ (evacuationEntry s).ep.reply = s.ep.reply ∧
    (evacuationEntry s).ep.forming = s.ep.forming ∧ (evacuationEntry s).ep.discarded = s.ep.discarded ∧
    (evacuationEntry s).ep.mask = s.ep.mask ∧ (evacuationEntry s).ep.miso = s.ep.miso := by
  unfold evacuationEntry
  dsimp only
  repeat' split
  all_goals simp

/-- The cleared latch touches the unit, the table, the station records and EVAC_CHANGE alone. -/
@[simp] theorem clearLatch_frame :
    (clearLatch s).service = s.service ∧ (clearLatch s).resetHeld = s.resetHeld ∧
    (clearLatch s).config = s.config ∧ (clearLatch s).ds = s.ds ∧ (clearLatch s).wg = s.wg ∧
    (clearLatch s).lm = s.lm ∧ (clearLatch s).cs = s.cs ∧ (clearLatch s).ec = s.ec ∧ (clearLatch s).re = s.re ∧
    (clearLatch s).fe = s.fe ∧ (clearLatch s).pending = s.pending ∧ (clearLatch s).kl.trunks = s.kl.trunks ∧
    (clearLatch s).eu.asserted = s.eu.asserted ∧ (clearLatch s).eu.differing = s.eu.differing ∧
    (clearLatch s).eu.tree = s.eu.tree ∧ (clearLatch s).ep.reply = s.ep.reply ∧
    (clearLatch s).ep.forming = s.ep.forming ∧ (clearLatch s).ep.discarded = s.ep.discarded ∧
    (clearLatch s).ep.mask = s.ep.mask ∧ (clearLatch s).ep.miso = s.ep.miso := by
  unfold clearLatch
  dsimp only
  split <;> simp

end Sys2Proof.Laws
end

