-- ==== Sys2Proof/Laws/Exec.lean ====
section
/-! SUPPORT. What `exec` is for each kind of command, said once: a command frame is `takeFrame` with the checks and the
action of its command, and every command but the RESET pin is idle while the part is held reset. -/

namespace Sys2Proof.Laws
open Sys2Proof.Machine Sys2Proof.Safety

/-- The length check and the action of each command frame, with its bytes. -/
def hostCommand : Instr → Option (HostCommand × List Byte)
  | .putListing f => some ({ fits := editFits .putListing, act := actEdit .putListing }, f)
  | .setListingStatus f => some ({ fits := editFits .setListingStatus, act := actEdit .setListingStatus }, f)
  | .retireListing f => some ({ fits := editFits .retireListing, act := actEdit .retireListing }, f)
  | .putNode f => some ({ fits := editFits .putNode, act := actEdit .putNode }, f)
  | .removeNode f => some ({ fits := editFits .removeNode, act := actEdit .removeNode }, f)
  | .putSegment f => some ({ fits := editFits .putSegment, act := actEdit .putSegment }, f)
  | .setSegmentState f => some ({ fits := editFits .setSegmentState, act := actEdit .setSegmentState }, f)
  | .removeSegment f => some ({ fits := editFits .removeSegment, act := actEdit .removeSegment }, f)
  | .setExit f => some ({ fits := editFits .setExit, act := actEdit .setExit }, f)
  | .setHome f => some ({ fits := editFits .setHome, act := actEdit .setHome }, f)
  | .setConfig f => some ({ fits := editFits .setConfig, act := actEdit .setConfig }, f)
  | .schedule f => some ({ fits := scheduleFits, act := actSchedule }, f)
  | .unschedule f => some ({ fits := exactly 1, act := actUnschedule }, f)
  | .turn f => some ({ fits := exactly 0, act := fun _ => actTurn }, f)
  | .load f => some ({ fits := fun p => decide (p.length % 3 = 0), act := actLoad }, f)
  | .setThreshold f => some ({ fits := exactly 3, act := actSetThreshold }, f)
  | .readLoad f => some ({ fits := exactly 4, act := actReadLoad }, f)
  | .readListing f => some ({ fits := exactly 2, act := actReadListing }, f)
  | .readNode f => some ({ fits := exactly 2, act := actReadNode }, f)
  | .readSegment f => some ({ fits := exactly 2, act := actReadSegment }, f)
  | .readStatus f => some ({ fits := exactly 0, act := fun _ => actReadStatus }, f)
  | .readStation f => some ({ fits := exactly 3, act := actReadStation }, f)
  | .readStationChanges f => some ({ fits := exactly 0, act := fun _ => actReadStationChanges }, f)
  | .readCounts f => some ({ fits := exactly 4, act := actReadCounts }, f)
  | .clearCounts f => some ({ fits := exactly 0, act := fun _ => actClearCounts }, f)
  | .setSubscription f => some ({ fits := exactly 4, act := actSetSubscription }, f)
  | .disableStation f => some ({ fits := exactly 2, act := actDisable }, f)
  | .releaseStation f => some ({ fits := exactly 2, act := actRelease }, f)
  | .resetTrunk f => some ({ fits := exactly 1, act := actResetTrunk }, f)
  | .setTime f => some ({ fits := exactly 2, act := actSetTime }, f)
  | .evacStart f => some ({ fits := exactly 0, act := fun _ => actEvacStart }, f)
  | .evacClear f => some ({ fits := exactly 0, act := fun _ => actEvacClear }, f)
  | .setAttentionMask f => some ({ fits := exactly 1, act := actSetMask }, f)
  | .ackAttention f => some ({ fits := exactly 1, act := actAck }, f)
  | .startService f => some ({ fits := exactly 0, act := fun _ => actStartService }, f)
  | .restartService f => some ({ fits := exactly 0, act := fun _ => actRestart }, f)
  | .fullReset f => some ({ fits := exactly 0, act := fun _ => actFullReset }, f)
  | _ => none

theorem exec_host {c : Instr} {h : HostCommand} {f : List Byte} (e : hostCommand c = some (h, f)) (s : State) :
    exec c s = live (takeFrame h.fits h.act f) s := by
  cases c <;> simp only [hostCommand, Option.some.injEq, Prod.mk.injEq, reduceCtorEq] at e <;>
    obtain ⟨rfl, rfl⟩ := e <;> rfl

theorem frameBytes_eq (c : Instr) : frameBytes c = (hostCommand c).map fun x => x.2 := by cases c <;> rfl

/-! ### A command frame (R188, R189) -/

/-- The part while a command of `n` frame bytes is being taken. -/
def held (n : Nat) (s : State) : State := holdPending (driveMiso (List.replicate n 0) s)

theorem takeFrame_pending (fits : List Byte → Bool) (act : List Byte → State → Taken) (f : List Byte) (s : State)
    (h : s.ep.reply.status = .pending) :
    takeFrame fits act f s = discardFrame (driveMiso (List.replicate (f.length + 1) 0) s) := by
  simp [takeFrame, h]

theorem takeFrame_refused (fits : List Byte → Bool) (act : List Byte → State → Taken) (f : List Byte) (s : State)
    (h : s.ep.reply.status ≠ .pending) {r : Reason} (hr : frameRefusal fits f = some r) :
    takeFrame fits act f s = taken (f.length + 1) (refusal r) s := by
  simp [takeFrame, h, hr]; rfl

theorem takeFrame_acts (fits : List Byte → Bool) (act : List Byte → State → Taken) (f : List Byte) (s : State)
    (h : s.ep.reply.status ≠ .pending) (hr : frameRefusal fits f = none) :
    takeFrame fits act f s = keepForming (act (payloadOf f) (held (f.length + 1) s)) := by
  simp [takeFrame, h, hr, held]

@[simp] theorem live_held (f : State → State) {s : State} (h : s.resetHeld = true) : live f s = .next s := by
  simp [live, h]

@[simp] theorem live_running (f : State → State) {s : State} (h : s.resetHeld = false) : live f s = .next (f s) := by
  simp [live, h]

/-- A frame of a payload of at most 250 bytes passes the first check, and its payload is read back. -/
@[simp] theorem payloadOf_frameOf {p : List Byte} (h : p.length ≤ 250) : payloadOf (frameOf p) = p := by
  have : p.length % 256 = p.length := Nat.mod_eq_of_lt (by omega)
  simp [payloadOf, frameOf, byteOf, this]

theorem frameRefusal_frameOf (fits : List Byte → Bool) {p : List Byte} (h : p.length ≤ 250) :
    frameRefusal fits (frameOf p) = if fits p then none else some .badLength := by
  have e : p.length % 256 = p.length := Nat.mod_eq_of_lt (by omega)
  have hp := payloadOf_frameOf h
  have hw : frameWhole (frameOf p) = true := by simp [frameWhole, frameOf, byteOf, e]
  simp only [frameRefusal, lengthFits, hp, hw]
  cases fits p <;> simp [frameOf, byteOf, e, h]

/-- A command whose payload fits acts on the part while it is being taken. -/
theorem exec_frameOf {c : Instr} {h : HostCommand} {p : List Byte} (e : hostCommand c = some (h, frameOf p)) {s : State}
    (ht : taking s) (hp : p.length ≤ 250) (hf : h.fits p = true) :
    exec c s = .next (keepForming (h.act p (held (p.length + 2) s))) := by
  rw [exec_host e, live_running _ ht.1, takeFrame_acts _ _ _ _ ht.2 (by simp [frameRefusal_frameOf _ hp, hf]),
    payloadOf_frameOf hp]
  simp [frameOf]

/-! ### The part while a command is being taken differs in the Edit Port alone -/

section
variable (n : Nat) (s : State)

@[simp] theorem held_frame :
    (held n s).service = s.service ∧ (held n s).resetHeld = s.resetHeld ∧ (held n s).config = s.config ∧
    (held n s).ds = s.ds ∧ (held n s).wg = s.wg ∧ (held n s).lm = s.lm ∧ (held n s).cs = s.cs ∧
    (held n s).ec = s.ec ∧ (held n s).qt = s.qt ∧ (held n s).re = s.re ∧ (held n s).fe = s.fe ∧
    (held n s).eu = s.eu ∧ (held n s).kl = s.kl ∧ (held n s).pending = s.pending ∧
    (held n s).ep.flags = s.ep.flags ∧ (held n s).ep.mask = s.ep.mask ∧
    (held n s).ep.discarded = s.ep.discarded := by
  simp [held]

@[simp] theorem stationAt_held (a : Addr) : stationAt (held n s) a = stationAt s a := rfl
@[simp] theorem trunkAt_held (t : TrunkNo) : trunkAt (held n s) t = trunkAt s t := rfl

theorem keepForming_refuse (r : Reason) : keepForming (refuse r (held n s)) = taken n (refusal r) s := rfl
theorem keepForming_answer (d : List Byte) : keepForming (answer d (held n s)) = taken n (okReply d) s := rfl

/-- A turn request reads and writes nothing of the Edit Port. -/
theorem requestTurn_held : requestTurn (held n s) = held n (requestTurn s) := by
  unfold requestTurn
  simp only [held_frame]
  cases s.service
  · rfl
  · by_cases h : s.ec.turn = .steady ∧ s.eu.unit ≠ .building <;> simp [h] <;> rfl
  · by_cases h : s.ec.turn = .steady ∧ s.eu.unit ≠ .building <;> simp [h] <;> rfl

theorem requestIf_held (w : Bool) : requestIf w (held n s) = held n (requestIf w s) := by
  unfold requestIf; split
  · exact requestTurn_held n s
  · rfl

/-- A command whose reply is known whole, ending in a state made while it was taken. -/
@[simp] theorem keepForming_replying (r : FormedReply) : keepForming (replying r (held n s)) = taken n r s := rfl

end

end Sys2Proof.Laws
end

