-- ==== Sys2Proof/Laws/Grant.lean ====
section
/-! SUPPORT. What the two arbiters do, said once each: which entry becomes WORKING and which engine takes it up, and the
live entries after both have granted (R110, R111). -/

namespace Sys2Proof.Laws
open Sys2Proof.Machine Sys2Proof.Safety

/-- No two entries of one station carry the same tag (R104). -/
abbrev TagsDistinct (entries : List QueryEntry) : Prop := entries.Pairwise fun e f => ¬(e.addr = f.addr ∧ e.tag = f.tag)

/-- An entry as its grant leaves it. -/
def granted (s : State) (e : QueryEntry) : QueryEntry := { e with state := .working, epoch := some s.ec.epoch }

theorem eq_of_tag {entries : List QueryEntry} (h : TagsDistinct entries) {e f : QueryEntry} (he : e ∈ entries)
    (hf : f ∈ entries) (ha : e.addr = f.addr) (ht : e.tag = f.tag) : e = f := by
  induction entries with
  | nil => cases he
  | cons g l ih =>
    rw [TagsDistinct, List.pairwise_cons] at h
    rcases List.mem_cons.1 he with rfl | he' <;> rcases List.mem_cons.1 hf with rfl | hf'
    · rfl
    · exact absurd ⟨ha, ht⟩ (h.1 f hf')
    · exact absurd ⟨ha.symm, ht.symm⟩ (h.1 e he')
    · exact ih h.2 he' hf'

/-- The change of one entry by its station and tag is the change of that entry. -/
theorem updateEntry_entries {entries : List QueryEntry} (h : TagsDistinct entries) {e : QueryEntry} (he : e ∈ entries)
    (f : QueryEntry → QueryEntry) :
    (entries.map fun x => if isEntry e.addr e.tag x then f x else x) = entries.map fun x => if e = x then f x else x := by
  refine List.map_congr_left fun x hx => ?_
  by_cases hxe : e = x
  · simp [hxe, isEntry]
  · have : ¬(x.addr = e.addr ∧ x.tag = e.tag) := fun ⟨ha, ht⟩ => hxe (eq_of_tag h he hx ha.symm ht.symm)
    simp [hxe, isEntry, this]

/-- What the route arbiter does: its oldest QUEUED entry is WORKING, and the engine works on it. -/
theorem grantRoute_some {s : State} {e : QueryEntry} (h : TagsDistinct s.qt.entries) (hm : routeMayGrant s = true)
    (ho : oldestQueued isRoute s.qt = some e) :
    (grantRoute s).qt.entries = (s.qt.entries.map fun x => if e = x then granted s x else x)
      ∧ ∃ w, (grantRoute s).re.work = some w ∧ w.addr = e.addr ∧ w.tag = e.tag := by
  have hq := List.find?_some ho
  simp only [Bool.and_eq_true] at hq
  unfold grantRoute
  rw [if_pos hm, ho]
  dsimp only
  split
  · exact ⟨updateEntry_entries h (List.mem_of_find?_eq_some ho) (granted s), by
      unfold startRoute; dsimp only; repeat' split
      all_goals exact ⟨_, rfl, rfl, rfl⟩⟩
  all_goals exact absurd hq.2 (by simp_all [isRoute])

theorem grantRoute_none {s : State} (h : routeMayGrant s = false ∨ oldestQueued isRoute s.qt = none) :
    grantRoute s = s := by
  unfold grantRoute
  rcases h with h | h <;> simp [h]

/-- What the find arbiter does: its oldest QUEUED entry is WORKING, and the engine works on it. -/
theorem grantFind_some {s : State} {e : QueryEntry} (h : TagsDistinct s.qt.entries) (hw : s.fe.work = none)
    (ht : s.ec.turn = .steady) (ho : oldestQueued (fun e => !isRoute e) s.qt = some e) :
    (grantFind s).qt.entries = (s.qt.entries.map fun x => if e = x then granted s x else x)
      ∧ ∃ w, (grantFind s).fe.work = some w ∧ w.addr = e.addr ∧ w.tag = e.tag := by
  have hq := List.find?_some ho
  simp only [Bool.and_eq_true] at hq
  have hl : ∃ l b, lookupOf e = some (l, b) := by
    have := hq.2
    unfold isRoute at this; unfold lookupOf
    split <;> simp_all
  obtain ⟨l, b, hl⟩ := hl
  unfold grantFind
  simp only [hw, ht, ho, hl, Option.isNone_none, BEq.rfl, Bool.and_self, if_true]
  exact ⟨updateEntry_entries h (List.mem_of_find?_eq_some ho) (granted s), _, rfl, rfl, rfl⟩

theorem grantFind_none {s : State} (h : s.fe.work ≠ none ∨ s.ec.turn ≠ .steady ∨
    oldestQueued (fun e => !isRoute e) s.qt = none) : grantFind s = s := by
  unfold grantFind
  split
  · rename_i hc
    simp only [Bool.and_eq_true, Option.isNone_iff_eq_none, beq_iff_eq] at hc
    rw [(h.resolve_left (not_not.2 hc.1)).resolve_left (not_not.2 hc.2)]
  · rfl

/-- The live entries after the route arbiter has granted. -/
theorem grantRoute_entries {s : State} (h : TagsDistinct s.qt.entries) : (grantRoute s).qt.entries =
    s.qt.entries.map fun x =>
      if routeMayGrant s = true ∧ oldestQueued isRoute s.qt = some x then granted s x else x := by
  by_cases hm : routeMayGrant s = true
  · cases ho : oldestQueued isRoute s.qt with
    | none => simp [grantRoute_none (Or.inr ho)]
    | some e => simpa [hm] using (grantRoute_some h hm ho).1
  · simp [grantRoute_none (Or.inl (by simpa using hm)), hm]

/-- The live entries after the find arbiter has granted. -/
theorem grantFind_entries {s : State} (h : TagsDistinct s.qt.entries) : (grantFind s).qt.entries =
    s.qt.entries.map fun x => if s.ec.turn = .steady ∧ s.fe.work = none ∧
      oldestQueued (fun e => !isRoute e) s.qt = some x then granted s x else x := by
  by_cases hm : s.ec.turn = .steady ∧ s.fe.work = none
  · cases ho : oldestQueued (fun e => !isRoute e) s.qt with
    | none => simp [grantFind_none (Or.inr (Or.inr ho))]
    | some e => simpa [hm] using (grantFind_some h hm.2 hm.1 ho).1
  · rw [grantFind_none (by tauto)]
    exact ((List.map_congr_left fun x _ => if_neg (by tauto)).trans (List.map_id' _)).symm

/-- A route grant leaves the oldest QUEUED FIND or BROWSE entry as it was. -/
theorem oldestFind_grantRoute {s : State} (h : TagsDistinct s.qt.entries) :
    oldestQueued (fun e => !isRoute e) (grantRoute s).qt = oldestQueued (fun e => !isRoute e) s.qt := by
  have hroute : ∀ x, oldestQueued isRoute s.qt = some x → isRoute x = true := fun x hx => by
    have := List.find?_some hx; simp_all
  have key : ∀ l : List QueryEntry, (l.map fun x =>
      if routeMayGrant s = true ∧ oldestQueued isRoute s.qt = some x then granted s x else x).find?
        (fun e => isQueued e && !isRoute e) = l.find? fun e => isQueued e && !isRoute e := by
    intro l
    induction l with
    | nil => rfl
    | cons x l ih =>
      rw [List.map_cons, List.find?_cons, List.find?_cons, ih]
      by_cases hc : routeMayGrant s = true ∧ oldestQueued isRoute s.qt = some x
      · rw [if_pos hc]
        have hg : isQueued (granted s x) = false := rfl
        simp [hg, hroute x hc.2]
      · rw [if_neg hc]
  unfold oldestQueued
  rw [grantRoute_entries h]
  exact key _

/-- The engine of the route arbiter begins the entry granted. -/
theorem grantRoute_begins {s : State} {e : QueryEntry} {target : Target} {profile : Profile} {origin : Option Nat}
    (hm : routeMayGrant s = true) (ho : oldestQueued isRoute s.qt = some e)
    (hq : e.query = .route target profile origin) :
    (grantRoute s).re = startRoute s e target profile origin := by
  unfold grantRoute
  rw [if_pos hm, ho]
  dsimp only
  rw [hq]

/-- The engine of the find arbiter begins the entry granted. -/
theorem grantFind_begins {s : State} {e : QueryEntry} {l : Lookup} {browse : Bool} (hf : findOpen s)
    (ho : oldestQueued (fun e => !isRoute e) s.qt = some e) (hl : lookupOf e = some (l, browse)) :
    (grantFind s).fe = { work := some (scanBegun s e l browse) } := by
  unfold grantFind
  simp only [hf.1, hf.2, ho, hl, Option.isNone_none, BEq.rfl, Bool.and_self, if_true]
  rfl

/-- All that the two arbiters do together (R110, R111). -/
theorem grant_granted {s : State} (h : TagsDistinct s.qt.entries) : Granted s (grant s) := by
  have hd : TagsDistinct (grantRoute s).qt.entries := by
    rw [grantRoute_entries h, TagsDistinct, List.pairwise_map]
    refine h.imp fun {a b} hab => ?_
    split <;> split <;> simpa [granted] using hab
  have hm : routeMayGrant s = true ↔ routeOpen s := by simp [routeMayGrant, and_assoc]
  have er : oldestWaiting true s = oldestQueued isRoute s.qt := by simp [oldestWaiting, oldestQueued, isQueued]
  have ef : oldestWaiting false s = oldestQueued (fun e => !isRoute e) s.qt := by
    simp [oldestWaiting, oldestQueued, isQueued]
  have hfe : (grant s).fe = (grantFind (grantRoute s)).fe := rfl
  have hre : (grant s).re = (grantRoute s).re := by simp [grant]
  have hopen : findOpen (grantRoute s) ↔ findOpen s := by simp [findOpen]
  refine ⟨?_, ?_, ?_, ?_, ?_, ?_⟩
  · have := @grant_frame s
    obtain ⟨h1, h2, h3, h4, h5, h6, h7, h8, h9, h10, h11, h12⟩ := this
    cases hg : grant s
    simp_all
  · have hroute : ∀ x, oldestQueued isRoute s.qt = some x → isRoute x = true := fun x hx => by
      have := List.find?_some hx; simp_all
    have hfind : ∀ x, oldestQueued (fun e => !isRoute e) s.qt = some x → isQueued x = true ∧ isRoute x = false :=
      fun x hx => by have := List.find?_some hx; simp_all
    rw [grant, grantFind_entries hd, oldestFind_grantRoute h, grantRoute_entries h, List.map_map, er, ef]
    refine List.map_congr_left fun x _ => ?_
    simp only [Function.comp_apply, hm, grantRoute_frame]
    by_cases h1 : oldestQueued isRoute s.qt = some x
    · have hx := hroute x h1
      have h2 : ∀ y, isRoute y = true → oldestQueued (fun e => !isRoute e) s.qt ≠ some y := fun y hy hc => by
        simp [hfind y hc] at hy
      rw [if_neg fun hc => h2 _ (by split <;> exact hx) hc.2.2]
      simp [h1, h2 x hx, granted]
    · simp [h1, granted, findOpen, and_assoc, and_left_comm]
  · intro ho e target profile origin hw hq
    rw [hre, grantRoute_begins (hm.2 ho) (er ▸ hw) hq]
  · intro hk
    rw [hre, grantRoute_none]
    rw [er] at hk
    rcases hk with hk | hk
    · exact .inl (Bool.eq_false_iff.2 (mt hm.1 hk))
    · exact .inr hk
  · intro ho e l hw
    rw [ef, ← oldestFind_grantRoute h] at hw
    have hb : ∀ b, scanBegun (grantRoute s) e l b = scanBegun s e l b := fun b => by simp [scanBegun]
    exact ⟨fun hq => by rw [hfe, grantFind_begins (hopen.2 ho) hw (by rw [lookupOf, hq]), hb],
      fun hq => by rw [hfe, grantFind_begins (hopen.2 ho) hw (by rw [lookupOf, hq]), hb]⟩
  · intro hk
    rw [ef, ← oldestFind_grantRoute h] at hk
    rw [hfe, grantFind_none]
    · simp
    · rcases hk with hk | hk
      · rw [← hopen] at hk
        simp only [findOpen, not_and_or] at hk
        tauto
      · exact .inr (.inr hk)

/-- All that follows when the route engine has become idle: a build that waited for it, and the grants (R110, R182). -/
theorem afterRouteIdle_idled {s : State} (hr : s.resetHeld = false) (h : TagsDistinct s.qt.entries) :
    RouteIdled s (afterRouteIdle s) :=
  ⟨beginBuildIfDue s, by show execExitTreeBuildStart s = _; simp [execExitTreeBuildStart, live, hr, beginBuildIfDue],
    grant_granted (by simpa using h)⟩

end Sys2Proof.Laws
end

