-- ==== Sys2Proof/Laws/Link.lean ====
section
/-! SUPPORT. What the operations of the kiosk link do, said once each: changes of a station's state, answer queues, the
end of an exchange with its reply, and the requests a reply carries. -/

namespace Sys2Proof.Laws
open Sys2Proof.Machine Sys2Proof.Safety

variable (s : State)

/-! ### Changes of state (R167) -/

theorem changeState_same {a : Addr} {x : StationState} (h : (stationAt s a).state = x) : changeState a x s = s := by
  simp [changeState, h]

theorem changeState_new {a : Addr} {x : StationState} (h : (stationAt s a).state ≠ x) :
    changeState a x s =
      raiseFlag stationChange (updateStation a (fun st => { st with state := x, changed := true }) s) := by
  simp [changeState, h]

theorem stationAt_changeState (a b : Addr) (x : StationState) :
    stationAt (changeState a x s) b =
      if b = a ∧ (stationAt s a).state ≠ x then { stationAt s a with state := x, changed := true } else stationAt s b := by
  by_cases h : (stationAt s a).state = x
  · simp [changeState_same s h, h]
  · rw [changeState_new s h]
    by_cases e : b = a
    · subst e; simp [h]
    · simp [e, stationAt_updateStation_other]

@[simp] theorem trunkAt_changeState (a : Addr) (x : StationState) (t : TrunkNo) :
    trunkAt (changeState a x s) t = trunkAt s t := by
  unfold changeState; split <;> simp

/-! ### Entries (R104) -/

theorem findEntry_some {qt : QueryTable} {a : Addr} {tag : Tag} {e : QueryEntry} (h : findEntry qt a tag = some e) :
    e ∈ qt.entries ∧ e.addr = a ∧ e.tag = tag := by
  refine ⟨List.mem_of_find?_eq_some h, ?_⟩
  simpa [isEntry] using List.find?_some h

theorem findEntry_none {qt : QueryTable} {a : Addr} {tag : Tag} :
    findEntry qt a tag = none ↔ ∀ e ∈ qt.entries, ¬(e.addr = a ∧ e.tag = tag) := by
  simp [findEntry, isEntry]

/-! ### Answer queues (R170) -/

/-- A slot just reserved is filled in its place, and no other slot is. -/
theorem fillSlot_appendSlot {st : Station} (h : ∀ x ∈ st.queue, x.place < st.nextPlace) (tag : Tag) (m : Downstream) :
    fillSlot st.nextPlace tag m (appendSlot none st) = appendSlot (some (tag, m)) st := by
  have e : st.queue.map (fun x => if x.place = st.nextPlace then { x with content := some (tag, m) } else x) =
      st.queue := by
    conv_rhs => rw [← List.map_id st.queue]
    refine List.map_congr_left fun x hx => ?_
    rw [if_neg (Nat.ne_of_lt (h x hx))]; rfl
  simp [fillSlot, appendSlot, e]

/-- A slot just reserved is behind every place that is given up. -/
theorem releaseSlot_appendSlot {st : Station} {place : Nat} (h : place < st.nextPlace)
    (c : Option (Tag × Downstream)) :
    releaseSlot place (appendSlot c st) = appendSlot c (releaseSlot place st) := by
  have : st.nextPlace ≠ place := Nat.ne_of_gt h
  simp [releaseSlot, appendSlot, this]

theorem below_acknowledge {st : Station} (h : SlotsInv st) :
    ∀ x ∈ (acknowledge st).queue, x.place < (acknowledge st).nextPlace := by
  intro x hx
  exact h.below x (List.mem_of_mem_filter hx)

theorem withSlot_full {a : Addr} (f : Nat → State → State) (h : 4 ≤ (stationAt s a).queue.length) :
    withSlot a f s = updateStation a countOverrun s := by
  simp [withSlot, slotsFull, slotCapacity, h]

theorem withSlot_room {a : Addr} (f : Nat → State → State) (h : (stationAt s a).queue.length < 4) :
    withSlot a f s = f (stationAt s a).nextPlace (updateStation a (appendSlot none) s) := by
  simp [withSlot, slotsFull, slotCapacity, h]

/-! ### The end of an exchange (R165) -/

section
variable (t : TrunkNo) (bits : Nat)

@[simp] theorem endExchange_frame :
    (endExchange t bits s).service = s.service ∧ (endExchange t bits s).resetHeld = s.resetHeld ∧
    (endExchange t bits s).config = s.config ∧ (endExchange t bits s).ds = s.ds ∧
    (endExchange t bits s).wg = s.wg ∧ (endExchange t bits s).lm = s.lm ∧ (endExchange t bits s).cs = s.cs ∧
    (endExchange t bits s).ec = s.ec ∧ (endExchange t bits s).qt = s.qt ∧ (endExchange t bits s).re = s.re ∧
    (endExchange t bits s).fe = s.fe ∧ (endExchange t bits s).eu = s.eu ∧ (endExchange t bits s).ep = s.ep ∧
    (endExchange t bits s).pending = s.pending := by simp [endExchange]

@[simp] theorem stationAt_endExchange (a : Addr) : stationAt (endExchange t bits s) a = stationAt s a := rfl

@[simp] theorem exchange_endExchange : (trunkAt (endExchange t bits s) t).exchange = none := by simp [endExchange]

theorem trunkAt_endExchange_other {u : TrunkNo} (h : u ≠ t) : trunkAt (endExchange t bits s) u = trunkAt s u := by
  simp [endExchange, trunkAt_updateTrunk_other _ _ h]

end

/-- A good reply to a POLL, from its content. -/
theorem takeContent_poll {k : TrunkNo} {d : Nat} {x : Exchange} {r : StationReply} (h : answering k d x s)
    (hr : replyFits r = true) :
    takeContent k d r s =
      pollReply x.station r (endExchange k (d + 10 * (encodeReply 0 r).length) s) := by
  obtain ⟨-, hd, hx, -, hv, hp⟩ := h
  have : ¬ 64 < d := by omega
  simp [takeContent, takeReply, windowBits, this, hx, endWith, hv, hp, hr]

/-- A good request to a POLL from a station in service. -/
theorem takeContent_request {k : TrunkNo} {d : Nat} {x : Exchange} {tag : Tag} {type : RequestType} {p : List Byte}
    (h : answering k d x s) (hs : inService (stationAt s x.station) = true) (hp : paramsFit type p = true) :
    ∃ bits, takeContent k d (requestOf type tag p) s =
      (let u := updateStation x.station acknowledge (endExchange k bits s)
       takeRequest x.station tag type p (if type = .sleep then u else changeState x.station .enabled u)) := by
  have hc : requestTypeOf (requestTypeCode type) = some type := by cases type <;> rfl
  have hr : replyFits (requestOf type tag p) = true := by simp [replyFits, requestOf, hc, hp]
  refine ⟨d + 10 * (encodeReply 0 (requestOf type tag p)).length, ?_⟩
  rw [takeContent_poll s h hr]
  have hs' : (stationAt s x.station).state = .enabled ∨ (stationAt s x.station).state = .dormant := by
    simpa [inService] using hs
  rcases hs' with e | e <;> simp [pollReply, requestOf, pollRequest, hc, e]

/-- The record of a station that has just acknowledged keeps its state. -/
@[simp] theorem acknowledge_state (st : Station) : (acknowledge st).state = st.state := rfl

/-- What a change of state does to the attention flags (R167). -/
theorem changeState_ep (a : Addr) (x : StationState) :
    (changeState a x s).ep = { s.ep with flags := s.ep.flags ||| changeFlag x (stationAt s a) } := by
  unfold changeState changeFlag
  split <;> simp [raiseFlag, stationChange]

/-- A good request other than SLEEP: it is taken in a state in which its station is awake and nothing else has changed but
its trunk and the attention flags. -/
theorem takeContent_awake {k : TrunkNo} {d : Nat} {x : Exchange} {tag : Tag} {type : RequestType} {p : List Byte}
    (h : answering k d x s) (hs : inService (stationAt s x.station) = true) (hp : paramsFit type p = true)
    (hn : type ≠ .sleep) :
    ∃ v, takeContent k d (requestOf type tag p) s = takeRequest x.station tag type p v
      ∧ stationAt v x.station = awake (stationAt s x.station)
      ∧ sameButRequest k x.station (changeFlag .enabled (stationAt s x.station)) s v
      ∧ v.qt = s.qt ∧ v.re = s.re ∧ v.fe = s.fe := by
  obtain ⟨b, e⟩ := takeContent_request s (type := type) (p := p) (tag := tag) h hs hp
  simp only [hn, if_false] at e
  refine ⟨_, e, ?_, ⟨?_, ?_, ?_, ?_, ?_, ?_, ?_⟩, ?_⟩
  · simp only [stationAt_changeState, awake, stationAt_updateStation_same, stationAt_endExchange, acknowledge_state]
    split <;> simp_all
  · intro c hc; simp [stationAt_changeState, hc, stationAt_updateStation]
  · simp [sameRecords]
  · simp
  · simp
  · simp [changeState_ep, changeFlag]
  · intro u hu; simp [trunkAt_endExchange_other s k b hu]
  · simp
  · simp

/-- The queue of an awake station is that of one that has acknowledged. -/
theorem awake_queue (st : Station) : (awake st).queue = (acknowledge st).queue := by unfold awake; split <;> rfl

theorem awake_nextPlace (st : Station) : (awake st).nextPlace = st.nextPlace := by unfold awake; split <;> rfl

theorem awake_below {st : Station} (h : SlotsInv st) : ∀ x ∈ (awake st).queue, x.place < (awake st).nextPlace := by
  rw [awake_queue, awake_nextPlace]; exact below_acknowledge h

end Sys2Proof.Laws
end

