-- ==== Sys2Proof/Laws/Miso.lean ====
section
/-! SUPPORT. The bytes driven on MISO: every action of a command leaves them and does the same whatever they are, so a
frame with bytes beyond its length does what the frame without them does (R188). -/

namespace Sys2Proof.Laws
open Sys2Proof.Machine Sys2Proof.Safety

/-- An operation that neither reads nor writes what was driven on MISO. -/
abbrev MisoFree (f : State → State) : Prop := ∀ (b : List Byte) (s : State), f (driveMiso b s) = driveMiso b (f s)

/-- An action of a command that neither reads nor writes what was driven on MISO. -/
abbrev ActMisoFree (act : State → Taken) : Prop :=
  ∀ (b : List Byte) (s : State), act (driveMiso b s) = (driveMiso b (act s).1, (act s).2)

/-- What was driven on MISO taken out of a choice. -/
theorem ite_driveMiso (b : List Byte) (c : Prop) [Decidable c] (x y : State) :
    (if c then driveMiso b x else driveMiso b y) = driveMiso b (if c then x else y) := (apply_ite _ _ _ _).symm

theorem MisoFree.foldl {α : Type} {f : α → State → State} (hf : ∀ a, MisoFree (f a)) (l : List α) :
    MisoFree fun s => l.foldl (fun t a => f a t) s := fun b s => by
  induction l generalizing s with
  | nil => rfl
  | cons a l ih => simp only [List.foldl_cons]; rw [hf]; exact ih _

/-! ### The shared operations -/

theorem requestTurn_miso : MisoFree requestTurn := fun b s => by
  unfold requestTurn driveMiso; dsimp only
  split
  · rfl
  all_goals split <;> rfl

theorem requestIf_miso (w : Bool) : MisoFree (requestIf w) := fun b s => by
  cases w
  · rfl
  · exact requestTurn_miso b s

theorem applyEdit_miso (e : Edit) (b : List Byte) (s : State) :
    applyEdit e (driveMiso b s) = (driveMiso b (applyEdit e s).1, (applyEdit e s).2) := by
  cases e
  case putListing n f => simp only [applyEdit, applyPutListing, driveMiso]; split <;> rfl
  case setListingStatus n x f => simp only [applyEdit, applySetStatus, driveMiso]; split <;> rfl
  case putSegment n f => simp only [applyEdit, applyPutSegment, driveMiso]; split <;> rfl
  case setSegmentState n x => simp only [applyEdit, applySetSegmentState, driveMiso]; split <;> rfl
  case removeSegment n => simp only [applyEdit, applyRemoveSegment, driveMiso]; split <;> rfl
  case setExit n x => simp only [applyEdit, applySetExit, driveMiso]; split <;> rfl
  all_goals rfl

theorem editTest_miso (e : Edit) (b : List Byte) (s : State) : editTest e (driveMiso b s) = editTest e s := by
  cases e <;> rfl

theorem takePair_miso (n q : Nat) : MisoFree (takePair n q) := fun b s => by
  unfold takePair driveMiso; dsimp only
  split
  · rfl
  · split
    · split <;> rfl
    · split <;> rfl

theorem takePairs_miso (l : List (Nat × Nat)) : MisoFree (takePairs l) := fun b s => by
  induction l generalizing s with
  | nil => rfl
  | cons x l ih => obtain ⟨n, q⟩ := x; simp only [takePairs]; rw [takePair_miso]; exact ih _

theorem passOf_miso (f : Scheduled → Bool) (b : List Byte) (s : State) :
    passOf f (driveMiso b s) = (driveMiso b (passOf f s).1, (passOf f s).2) := by
  exact congrArg (·, _) (ite_driveMiso b _ (raiseFlag scheduleDue { s with cs := (servePass f s.cs).cs })
    { s with cs := (servePass f s.cs).cs })

theorem serveSchedule_miso (f : Nat → Bool) (b : List Byte) (s : State) :
    serveSchedule f (driveMiso b s) = (driveMiso b (serveSchedule f s).1, (serveSchedule f s).2) := by
  simp only [serveSchedule, duePass, passOf_miso]

theorem setTime_miso (n : Nat) : MisoFree (setTime n) := fun b s => by
  let w := { s with cs := { s.cs with clock := { set := true, minute := n, seconds := 0 } } }
  let g := fun m => decide (s.cs.clock.minute < m) && decide (m ≤ n)
  by_cases hc : s.cs.clock.set = true ∧ s.cs.clock.minute < n
  · have h1 : setTime n s = requestIf (serveSchedule g w).2 (serveSchedule g w).1 := if_pos hc
    have h2 : setTime n (driveMiso b s) =
      requestIf (serveSchedule g (driveMiso b w)).2 (serveSchedule g (driveMiso b w)).1 := if_pos hc
    rw [h1, h2, serveSchedule_miso, requestIf_miso]
  · have h1 : setTime n s = w := if_neg hc
    have h2 : setTime n (driveMiso b s) = driveMiso b w := if_neg hc
    rw [h1, h2]

/-! ### Stations -/

theorem changeState_miso (a : Addr) (new : StationState) : MisoFree (changeState a new) := fun b s => by
  have h : stationAt (driveMiso b s) a = stationAt s a := rfl
  unfold changeState; rw [h]; split <;> rfl

theorem leave_miso (a : Addr) : MisoFree (leave a) := fun b s => by
  have h : stationAt (driveMiso b s) a = stationAt s a := rfl
  unfold leave; rw [h]; split <;> rfl

theorem disable_miso (a : Addr) : MisoFree (disable a) := fun b s => by
  have h : stationAt (driveMiso b s) a = stationAt s a := rfl
  have hv : ∀ t, voidExchange a (depart a .disabled (driveMiso b t)) =
      driveMiso b (voidExchange a (depart a .disabled t)) := fun t => by
    rw [depart, leave_miso, changeState_miso]; rfl
  unfold disable; rw [h]; dsimp only
  split
  · exact hv s
  · exact hv (updateStation a (fun st => { st with misses := 0, attempts := 0, countdown := 0 }) s)

theorem resetTrunk_miso (t : TrunkNo) : MisoFree (resetTrunk t) := fun b s => by
  have h : anyStation (driveMiso b s) t becomesAbsent = anyStation s t becomesAbsent := rfl
  unfold resetTrunk; rw [h]; dsimp only; split <;> rfl

theorem restart_miso : MisoFree restart := fun b s => by
  by_cases h : ((List.finRange 96).any fun a => becomesAbsent (stationAt s a)) = true
  · have h1 : restart s = raiseFlag _ _ := if_pos h
    have h2 : restart (driveMiso b s) = raiseFlag _ _ := if_pos h
    rw [h1, h2]; rfl
  · have h1 : restart s = _ := if_neg h
    have h2 : restart (driveMiso b s) = _ := if_neg h
    rw [h1, h2]; rfl

/-! ### The arbiters and the evacuation -/

theorem grantRoute_miso : MisoFree grantRoute := fun b s => by
  have h : routeMayGrant (driveMiso b s) = routeMayGrant s := rfl
  have ho : oldestQueued isRoute (driveMiso b s).qt = oldestQueued isRoute s.qt := rfl
  unfold grantRoute; rw [h, ho]
  split
  · split
    · rfl
    · split <;> rfl
  · rfl

theorem grantFind_miso : MisoFree grantFind := fun b s => by
  have h : (driveMiso b s).fe = s.fe ∧ (driveMiso b s).ec = s.ec ∧ (driveMiso b s).qt = s.qt := ⟨rfl, rfl, rfl⟩
  unfold grantFind; rw [h.1, h.2.1, h.2.2]
  split
  · split
    · rfl
    · split <;> rfl
  · rfl

theorem grant_miso : MisoFree grant := fun b s => by rw [grant, grantRoute_miso, grantFind_miso, grant]

theorem beginBuildIfDue_miso : MisoFree beginBuildIfDue := fun b s => by
  have h : buildDue (driveMiso b s) = buildDue s := rfl
  unfold beginBuildIfDue whenever; rw [h]; split <;> rfl

theorem evacuateEntry_miso (e : QueryEntry) : MisoFree (evacuateEntry e) := fun b s => by
  unfold evacuateEntry; split <;> rfl

theorem evacuateEntries_miso : MisoFree evacuateEntries := fun b s =>
  MisoFree.foldl evacuateEntry_miso (s.qt.entries.filter isRoute) b s

theorem evacuationEntry_miso : MisoFree evacuationEntry := fun b s => by
  have h : (driveMiso b s).eu = s.eu ∧ (driveMiso b s).service = s.service := ⟨rfl, rfl⟩
  unfold evacuationEntry; rw [h.1, h.2]
  split
  · rfl
  · split
    · rfl
    · rfl
    · rw [← beginBuildIfDue_miso, ← evacuateEntries_miso]; rfl

theorem clearLatch_miso : MisoFree clearLatch := fun b s => by
  have h : (driveMiso b s).service = s.service := rfl
  unfold clearLatch; rw [h]; dsimp only; split <;> rfl

theorem afterBuild_miso : MisoFree afterBuild := fun b s => by
  have h : (driveMiso b s).ec = s.ec := rfl
  unfold afterBuild; rw [h]
  split
  · rfl
  · exact grant_miso b s

theorem evacuationClear_miso : MisoFree evacuationClear := fun b s => by
  have h : (driveMiso b s).eu = s.eu := rfl
  unfold evacuationClear; rw [h]
  split
  · rfl
  · split
    · rw [clearLatch_miso, afterBuild_miso]
    · rw [clearLatch_miso, grant_miso]

theorem fullReset_miso : MisoFree fullReset := fun _ _ => rfl

/-! ### The actions of the commands -/

theorem done_miso {f : State → State} (hf : MisoFree f) : ActMisoFree fun s => done (f s) := fun b s => by
  dsimp only; rw [hf]; rfl

theorem atStation_miso (p : List Byte) {f : Addr → State → Taken} (hf : ∀ a, ActMisoFree (f a)) :
    ActMisoFree (atStation p f) := fun b s => by
  unfold atStation
  split
  · rfl
  · exact hf _ b s

theorem actEdit_miso (kind : EditKind) (p : List Byte) : ActMisoFree (actEdit kind p) := fun b s => by
  have h : (driveMiso b s).service = s.service ∧ (driveMiso b s).cs = s.cs := ⟨rfl, rfl⟩
  unfold actEdit
  split
  · rfl
  · unfold takeEdit; rw [h.1, h.2, editTest_miso, applyEdit_miso]
    split
    · split <;> rfl
    all_goals
      split
      · rfl
      · simp only [replying, ← requestIf_miso]; rfl

theorem actSchedule_miso (p : List Byte) : ActMisoFree (actSchedule p) := fun b s => by
  have h : (driveMiso b s).cs = s.cs := rfl
  unfold actSchedule; rw [h]
  split
  · rfl
  · split
    · rfl
    · split <;> rfl

theorem actUnschedule_miso (p : List Byte) : ActMisoFree (actUnschedule p) := fun b s => by
  have h : (driveMiso b s).cs = s.cs := rfl
  unfold actUnschedule; rw [h]; dsimp only
  split
  · rfl
  · split <;> rfl

theorem actTurn_miso : ActMisoFree actTurn := fun b s => by
  have h : (driveMiso b s).service = s.service := rfl
  unfold actTurn; rw [h]
  split
  · rfl
  all_goals exact done_miso requestTurn_miso b s

theorem actLoad_miso (p : List Byte) : ActMisoFree (actLoad p) := fun b s => by
  have h : (driveMiso b s).lm = s.lm := rfl
  unfold actLoad; rw [h]; dsimp only
  split
  · rfl
  · rw [takePairs_miso]; rfl

theorem actSetThreshold_miso (p : List Byte) : ActMisoFree (actSetThreshold p) := fun b s => by
  have h : (driveMiso b s).lm = s.lm := rfl
  unfold actSetThreshold; rw [h]
  split
  · rfl
  · split <;> rfl

theorem actReadLoad_miso (p : List Byte) : ActMisoFree (actReadLoad p) := fun b s => by
  have h : (driveMiso b s).lm = s.lm := rfl
  unfold actReadLoad; rw [h]; dsimp only
  split
  · split <;> rfl
  · rfl

theorem actReadCounts_miso (p : List Byte) : ActMisoFree (actReadCounts p) := fun b s => by
  have h : (driveMiso b s).ds = s.ds := rfl
  unfold actReadCounts; rw [h]; dsimp only
  split
  · split <;> rfl
  · rfl

theorem actReadListing_miso (p : List Byte) : ActMisoFree (actReadListing p) := fun b s => by
  have h : (driveMiso b s).ds = s.ds := rfl
  unfold actReadListing; rw [h]
  split
  · split <;> rfl
  · rfl

theorem actReadNode_miso (p : List Byte) : ActMisoFree (actReadNode p) := fun b s => by
  have h : (driveMiso b s).wg = s.wg := rfl
  unfold actReadNode; rw [h]
  split
  · split <;> rfl
  · rfl

theorem actReadSegment_miso (p : List Byte) : ActMisoFree (actReadSegment p) := fun b s => by
  have h : (driveMiso b s).wg = s.wg := rfl
  unfold actReadSegment; rw [h]
  split
  · split <;> rfl
  · rfl

theorem actReadStation_miso (p : List Byte) : ActMisoFree (actReadStation p) :=
  atStation_miso p fun a b s => by
    have h : stationAt (driveMiso b s) a = stationAt s a := rfl
    simp only [h]; split <;> rfl

theorem actSetSubscription_miso (p : List Byte) : ActMisoFree (actSetSubscription p) :=
  atStation_miso p fun a b s => by split <;> rfl

theorem actDisable_miso (p : List Byte) : ActMisoFree (actDisable p) :=
  atStation_miso p fun a b s => by
    have h : stationAt (driveMiso b s) a = stationAt s a := rfl
    rw [h]
    split
    · rfl
    · exact done_miso (disable_miso a) b s

theorem actRelease_miso (p : List Byte) : ActMisoFree (actRelease p) :=
  atStation_miso p fun a b s => by
    have h : stationAt (driveMiso b s) a = stationAt s a := rfl
    rw [h]
    split
    · exact done_miso (changeState_miso a .absent) b s
    · rfl

theorem actResetTrunk_miso (p : List Byte) : ActMisoFree (actResetTrunk p) := fun b s => by
  unfold actResetTrunk
  split
  · exact done_miso (resetTrunk_miso _) b s
  · rfl

theorem actSetTime_miso (p : List Byte) : ActMisoFree (actSetTime p) := fun b s => by
  unfold actSetTime
  split
  · rfl
  · exact done_miso (setTime_miso _) b s

theorem actEvacClear_miso : ActMisoFree actEvacClear := fun b s => by
  have h : (driveMiso b s).eu = s.eu := rfl
  unfold actEvacClear; rw [h]
  split
  · rfl
  · exact done_miso evacuationClear_miso b s

theorem actStartService_miso : ActMisoFree actStartService := fun b s => by
  have h : (driveMiso b s).service = s.service := rfl
  unfold actStartService; rw [h]
  split
  · exact done_miso requestTurn_miso b { s with service := .starting }
  all_goals rfl

theorem actRestart_miso : ActMisoFree actRestart := fun b s => by
  have h : (driveMiso b s).service = s.service := rfl
  unfold actRestart; rw [h]
  split
  · rfl
  all_goals exact done_miso restart_miso b s

theorem withFlags_miso (p : List Byte) {f : AttnFlags → State → State} (hf : ∀ x, MisoFree (f x)) :
    ActMisoFree (withFlags p f) := fun b s => by
  unfold withFlags
  split
  · rfl
  · exact done_miso (hf _) b s

theorem actReadStatus_miso : ActMisoFree actReadStatus := fun _ _ => rfl
theorem actReadStationChanges_miso : ActMisoFree actReadStationChanges := fun _ _ => rfl
theorem actClearCounts_miso : ActMisoFree actClearCounts := fun _ _ => rfl
theorem actFullReset_miso : ActMisoFree actFullReset := fun _ _ => rfl
theorem actEvacStart_miso : ActMisoFree actEvacStart := done_miso evacuationEntry_miso
theorem actSetMask_miso (p : List Byte) : ActMisoFree (actSetMask p) := withFlags_miso p fun _ _ _ => rfl
theorem actAck_miso (p : List Byte) : ActMisoFree (actAck p) := withFlags_miso p fun _ _ _ => rfl

/-- Every action of a command frame neither reads nor writes what was driven on MISO. -/
theorem hostCommand_miso {c : Instr} {h : HostCommand} {f : List Byte} (e : hostCommand c = some (h, f))
    (p : List Byte) : ActMisoFree (h.act p) := by
  cases c <;> simp only [hostCommand, Option.some.injEq, Prod.mk.injEq, reduceCtorEq] at e <;>
    obtain ⟨rfl, rfl⟩ := e <;> dsimp only
  all_goals with_reducible first
    | exact actEdit_miso _ p | exact actSchedule_miso p | exact actUnschedule_miso p | exact actTurn_miso
    | exact actLoad_miso p | exact actSetThreshold_miso p | exact actReadLoad_miso p | exact actReadListing_miso p
    | exact actReadNode_miso p | exact actReadSegment_miso p | exact actReadStatus_miso | exact actReadStation_miso p
    | exact actReadStationChanges_miso | exact actReadCounts_miso p | exact actClearCounts_miso
    | exact actSetSubscription_miso p | exact actDisable_miso p | exact actRelease_miso p | exact actResetTrunk_miso p
    | exact actSetTime_miso p | exact actEvacStart_miso | exact actEvacClear_miso | exact actSetMask_miso p
    | exact actAck_miso p | exact actStartService_miso | exact actRestart_miso | exact actFullReset_miso

end Sys2Proof.Laws
end

