-- ==== Sys2Proof/WellFormed.lean ====
section
/-! DEFINITION. Which terms of `Instr` stand for an event of the row they are named after. The meanings are total:
an ill-formed term has the effect the spec gives its bytes, not the effect its name suggests (log 12, log 13). -/

namespace Sys2Proof
open Sys2Proof.Machine

/-- The reply window in bit times (R165). -/
def replyWindow : Nat := 64

/-- A well-formed term: its operands are such as the row's event can have. -/
def Instr.wellFormed : Instr → Bool
  | .reply clocked => clocked != 0
  | .unknownCommand kind _ => !hostKinds.contains kind
  | .staleExpiry segment => decide (segment ≤ 4095)
  | .probeReply _ delay content => decide (delay ≤ replyWindow) && replyFits content
  | .emptyReply _ delay => decide (delay ≤ replyWindow)
  | .readyReply _ delay => decide (delay ≤ replyWindow)
  | .findRequest _ delay _ params => decide (delay ≤ replyWindow) && paramsFit .find params
  | .browseRequest _ delay _ params => decide (delay ≤ replyWindow) && paramsFit .browse params
  | .routeRequest _ delay _ params => decide (delay ≤ replyWindow) && paramsFit .route params
  | .pageRequest _ delay _ params => decide (delay ≤ replyWindow) && paramsFit .page params
  | .cancelRequest _ delay _ params => decide (delay ≤ replyWindow) && paramsFit .cancel params
  | .releaseRequest _ delay _ params => decide (delay ≤ replyWindow) && paramsFit .release params
  | .seenRequest _ delay _ params => decide (delay ≤ replyWindow) && paramsFit .seen params
  | .sleepRequest _ delay _ params => decide (delay ≤ replyWindow) && paramsFit .sleep params
  | .wakeRequest _ delay _ params => decide (delay ≤ replyWindow) && paramsFit .wake params
  | _ => true

end Sys2Proof
end

