-- ==== Sys2Proof/Laws/PerInstr.lean ====
section
/-! SUPPORT. The family of statements about every command as syntax: its row has a well-formed term, whatever operands a
given term of it has. -/

namespace Sys2Proof.Laws

/-- Some term of the same row is well formed. -/
def WellFormedForm.Statement (i : Instr) : Prop := ∃ j : Instr, j.ctorIdx = i.ctorIdx ∧ j.wellFormed = true

theorem WellFormedForm.reply (clocked : Nat) : WellFormedForm.Statement (.reply clocked) :=
  ⟨.reply 1, rfl, rfl⟩
theorem WellFormedForm.unknownCommand (kind : Byte) (frame : List Byte) : WellFormedForm.Statement (.unknownCommand kind frame) :=
  ⟨.unknownCommand 0x7E [], rfl, rfl⟩
theorem WellFormedForm.putListing (frame : List Byte) : WellFormedForm.Statement (.putListing frame) :=
  ⟨.putListing frame, rfl, rfl⟩
theorem WellFormedForm.setListingStatus (frame : List Byte) : WellFormedForm.Statement (.setListingStatus frame) :=
  ⟨.setListingStatus frame, rfl, rfl⟩
theorem WellFormedForm.retireListing (frame : List Byte) : WellFormedForm.Statement (.retireListing frame) :=
  ⟨.retireListing frame, rfl, rfl⟩
theorem WellFormedForm.putNode (frame : List Byte) : WellFormedForm.Statement (.putNode frame) :=
  ⟨.putNode frame, rfl, rfl⟩
theorem WellFormedForm.removeNode (frame : List Byte) : WellFormedForm.Statement (.removeNode frame) :=
  ⟨.removeNode frame, rfl, rfl⟩
theorem WellFormedForm.putSegment (frame : List Byte) : WellFormedForm.Statement (.putSegment frame) :=
  ⟨.putSegment frame, rfl, rfl⟩
theorem WellFormedForm.setSegmentState (frame : List Byte) : WellFormedForm.Statement (.setSegmentState frame) :=
  ⟨.setSegmentState frame, rfl, rfl⟩
theorem WellFormedForm.removeSegment (frame : List Byte) : WellFormedForm.Statement (.removeSegment frame) :=
  ⟨.removeSegment frame, rfl, rfl⟩
theorem WellFormedForm.setExit (frame : List Byte) : WellFormedForm.Statement (.setExit frame) :=
  ⟨.setExit frame, rfl, rfl⟩
theorem WellFormedForm.setHome (frame : List Byte) : WellFormedForm.Statement (.setHome frame) :=
  ⟨.setHome frame, rfl, rfl⟩
theorem WellFormedForm.setConfig (frame : List Byte) : WellFormedForm.Statement (.setConfig frame) :=
  ⟨.setConfig frame, rfl, rfl⟩
theorem WellFormedForm.schedule (frame : List Byte) : WellFormedForm.Statement (.schedule frame) :=
  ⟨.schedule frame, rfl, rfl⟩
theorem WellFormedForm.unschedule (frame : List Byte) : WellFormedForm.Statement (.unschedule frame) :=
  ⟨.unschedule frame, rfl, rfl⟩
theorem WellFormedForm.turn (frame : List Byte) : WellFormedForm.Statement (.turn frame) :=
  ⟨.turn frame, rfl, rfl⟩
theorem WellFormedForm.load (frame : List Byte) : WellFormedForm.Statement (.load frame) :=
  ⟨.load frame, rfl, rfl⟩
theorem WellFormedForm.setThreshold (frame : List Byte) : WellFormedForm.Statement (.setThreshold frame) :=
  ⟨.setThreshold frame, rfl, rfl⟩
theorem WellFormedForm.readLoad (frame : List Byte) : WellFormedForm.Statement (.readLoad frame) :=
  ⟨.readLoad frame, rfl, rfl⟩
theorem WellFormedForm.readListing (frame : List Byte) : WellFormedForm.Statement (.readListing frame) :=
  ⟨.readListing frame, rfl, rfl⟩
theorem WellFormedForm.readNode (frame : List Byte) : WellFormedForm.Statement (.readNode frame) :=
  ⟨.readNode frame, rfl, rfl⟩
theorem WellFormedForm.readSegment (frame : List Byte) : WellFormedForm.Statement (.readSegment frame) :=
  ⟨.readSegment frame, rfl, rfl⟩
theorem WellFormedForm.readStatus (frame : List Byte) : WellFormedForm.Statement (.readStatus frame) :=
  ⟨.readStatus frame, rfl, rfl⟩
theorem WellFormedForm.readStation (frame : List Byte) : WellFormedForm.Statement (.readStation frame) :=
  ⟨.readStation frame, rfl, rfl⟩
theorem WellFormedForm.readStationChanges (frame : List Byte) : WellFormedForm.Statement (.readStationChanges frame) :=
  ⟨.readStationChanges frame, rfl, rfl⟩
theorem WellFormedForm.readCounts (frame : List Byte) : WellFormedForm.Statement (.readCounts frame) :=
  ⟨.readCounts frame, rfl, rfl⟩
theorem WellFormedForm.clearCounts (frame : List Byte) : WellFormedForm.Statement (.clearCounts frame) :=
  ⟨.clearCounts frame, rfl, rfl⟩
theorem WellFormedForm.setSubscription (frame : List Byte) : WellFormedForm.Statement (.setSubscription frame) :=
  ⟨.setSubscription frame, rfl, rfl⟩
theorem WellFormedForm.disableStation (frame : List Byte) : WellFormedForm.Statement (.disableStation frame) :=
  ⟨.disableStation frame, rfl, rfl⟩
theorem WellFormedForm.releaseStation (frame : List Byte) : WellFormedForm.Statement (.releaseStation frame) :=
  ⟨.releaseStation frame, rfl, rfl⟩
theorem WellFormedForm.resetTrunk (frame : List Byte) : WellFormedForm.Statement (.resetTrunk frame) :=
  ⟨.resetTrunk frame, rfl, rfl⟩
theorem WellFormedForm.setTime (frame : List Byte) : WellFormedForm.Statement (.setTime frame) :=
  ⟨.setTime frame, rfl, rfl⟩
theorem WellFormedForm.evacStart (frame : List Byte) : WellFormedForm.Statement (.evacStart frame) :=
  ⟨.evacStart frame, rfl, rfl⟩
theorem WellFormedForm.evacClear (frame : List Byte) : WellFormedForm.Statement (.evacClear frame) :=
  ⟨.evacClear frame, rfl, rfl⟩
theorem WellFormedForm.setAttentionMask (frame : List Byte) : WellFormedForm.Statement (.setAttentionMask frame) :=
  ⟨.setAttentionMask frame, rfl, rfl⟩
theorem WellFormedForm.ackAttention (frame : List Byte) : WellFormedForm.Statement (.ackAttention frame) :=
  ⟨.ackAttention frame, rfl, rfl⟩
theorem WellFormedForm.startService (frame : List Byte) : WellFormedForm.Statement (.startService frame) :=
  ⟨.startService frame, rfl, rfl⟩
theorem WellFormedForm.restartService (frame : List Byte) : WellFormedForm.Statement (.restartService frame) :=
  ⟨.restartService frame, rfl, rfl⟩
theorem WellFormedForm.fullReset (frame : List Byte) : WellFormedForm.Statement (.fullReset frame) :=
  ⟨.fullReset frame, rfl, rfl⟩
theorem WellFormedForm.resetAssert : WellFormedForm.Statement .resetAssert :=
  ⟨.resetAssert, rfl, rfl⟩
theorem WellFormedForm.resetRelease : WellFormedForm.Statement .resetRelease :=
  ⟨.resetRelease, rfl, rfl⟩
theorem WellFormedForm.emergencyAsserted : WellFormedForm.Statement .emergencyAsserted :=
  ⟨.emergencyAsserted, rfl, rfl⟩
theorem WellFormedForm.emergencyReleased : WellFormedForm.Statement .emergencyReleased :=
  ⟨.emergencyReleased, rfl, rfl⟩
theorem WellFormedForm.secondEvent : WellFormedForm.Statement .secondEvent :=
  ⟨.secondEvent, rfl, rfl⟩
theorem WellFormedForm.minuteEvent : WellFormedForm.Statement .minuteEvent :=
  ⟨.minuteEvent, rfl, rfl⟩
theorem WellFormedForm.autoTurnExpiry : WellFormedForm.Statement .autoTurnExpiry :=
  ⟨.autoTurnExpiry, rfl, rfl⟩
theorem WellFormedForm.staleExpiry (segment : Nat) : WellFormedForm.Statement (.staleExpiry segment) :=
  ⟨.staleExpiry 0, rfl, rfl⟩
theorem WellFormedForm.holdExpiry (station : Addr) (tag : Tag) : WellFormedForm.Statement (.holdExpiry station tag) :=
  ⟨.holdExpiry station tag, rfl, rfl⟩
theorem WellFormedForm.drainComplete : WellFormedForm.Statement .drainComplete :=
  ⟨.drainComplete, rfl, rfl⟩
theorem WellFormedForm.applyStagedEdit : WellFormedForm.Statement .applyStagedEdit :=
  ⟨.applyStagedEdit, rfl, rfl⟩
theorem WellFormedForm.weightSampling : WellFormedForm.Statement .weightSampling :=
  ⟨.weightSampling, rfl, rfl⟩
theorem WellFormedForm.relocationRepair : WellFormedForm.Statement .relocationRepair :=
  ⟨.relocationRepair, rfl, rfl⟩
theorem WellFormedForm.reachabilityFloods : WellFormedForm.Statement .reachabilityFloods :=
  ⟨.reachabilityFloods, rfl, rfl⟩
theorem WellFormedForm.turnComplete : WellFormedForm.Statement .turnComplete :=
  ⟨.turnComplete, rfl, rfl⟩
theorem WellFormedForm.frameStart (trunk : TrunkNo) : WellFormedForm.Statement (.frameStart trunk) :=
  ⟨.frameStart trunk, rfl, rfl⟩
theorem WellFormedForm.resetCountdownExpiry (station : Addr) : WellFormedForm.Statement (.resetCountdownExpiry station) :=
  ⟨.resetCountdownExpiry station, rfl, rfl⟩
theorem WellFormedForm.notice (trunk : TrunkNo) : WellFormedForm.Statement (.notice trunk) :=
  ⟨.notice trunk, rfl, rfl⟩
theorem WellFormedForm.poll (trunk : TrunkNo) : WellFormedForm.Statement (.poll trunk) :=
  ⟨.poll trunk, rfl, rfl⟩
theorem WellFormedForm.stationReset (trunk : TrunkNo) : WellFormedForm.Statement (.stationReset trunk) :=
  ⟨.stationReset trunk, rfl, rfl⟩
theorem WellFormedForm.probe (trunk : TrunkNo) : WellFormedForm.Statement (.probe trunk) :=
  ⟨.probe trunk, rfl, rfl⟩
theorem WellFormedForm.probeReply (trunk : TrunkNo) (delay : Nat) (content : StationReply) : WellFormedForm.Statement (.probeReply trunk delay content) :=
  ⟨.probeReply trunk 0 .empty, rfl, rfl⟩
theorem WellFormedForm.emptyReply (trunk : TrunkNo) (delay : Nat) : WellFormedForm.Statement (.emptyReply trunk delay) :=
  ⟨.emptyReply trunk 0, rfl, rfl⟩
theorem WellFormedForm.readyReply (trunk : TrunkNo) (delay : Nat) : WellFormedForm.Statement (.readyReply trunk delay) :=
  ⟨.readyReply trunk 0, rfl, rfl⟩
theorem WellFormedForm.badReply (trunk : TrunkNo) (delay : Nat) (message : List Byte) : WellFormedForm.Statement (.badReply trunk delay message) :=
  ⟨.badReply trunk delay message, rfl, rfl⟩
theorem WellFormedForm.replyWindowClose (trunk : TrunkNo) : WellFormedForm.Statement (.replyWindowClose trunk) :=
  ⟨.replyWindowClose trunk, rfl, rfl⟩
theorem WellFormedForm.findRequest (trunk : TrunkNo) (delay : Nat) (tag : Tag) (params : List Byte) : WellFormedForm.Statement (.findRequest trunk delay tag params) :=
  ⟨.findRequest trunk 0 tag [0, 0, 0, 0], rfl, rfl⟩
theorem WellFormedForm.browseRequest (trunk : TrunkNo) (delay : Nat) (tag : Tag) (params : List Byte) : WellFormedForm.Statement (.browseRequest trunk delay tag params) :=
  ⟨.browseRequest trunk 0 tag [0, 0, 0], rfl, rfl⟩
theorem WellFormedForm.routeRequest (trunk : TrunkNo) (delay : Nat) (tag : Tag) (params : List Byte) : WellFormedForm.Statement (.routeRequest trunk delay tag params) :=
  ⟨.routeRequest trunk 0 tag [0, 0, 0, 0, 0, 0], rfl, rfl⟩
theorem WellFormedForm.pageRequest (trunk : TrunkNo) (delay : Nat) (tag : Tag) (params : List Byte) : WellFormedForm.Statement (.pageRequest trunk delay tag params) :=
  ⟨.pageRequest trunk 0 tag [0], rfl, rfl⟩
theorem WellFormedForm.cancelRequest (trunk : TrunkNo) (delay : Nat) (tag : Tag) (params : List Byte) : WellFormedForm.Statement (.cancelRequest trunk delay tag params) :=
  ⟨.cancelRequest trunk 0 tag [], rfl, rfl⟩
theorem WellFormedForm.releaseRequest (trunk : TrunkNo) (delay : Nat) (tag : Tag) (params : List Byte) : WellFormedForm.Statement (.releaseRequest trunk delay tag params) :=
  ⟨.releaseRequest trunk 0 tag [], rfl, rfl⟩
theorem WellFormedForm.seenRequest (trunk : TrunkNo) (delay : Nat) (tag : Tag) (params : List Byte) : WellFormedForm.Statement (.seenRequest trunk delay tag params) :=
  ⟨.seenRequest trunk 0 tag [0, 0], rfl, rfl⟩
theorem WellFormedForm.sleepRequest (trunk : TrunkNo) (delay : Nat) (tag : Tag) (params : List Byte) : WellFormedForm.Statement (.sleepRequest trunk delay tag params) :=
  ⟨.sleepRequest trunk 0 tag [], rfl, rfl⟩
theorem WellFormedForm.wakeRequest (trunk : TrunkNo) (delay : Nat) (tag : Tag) (params : List Byte) : WellFormedForm.Statement (.wakeRequest trunk delay tag params) :=
  ⟨.wakeRequest trunk 0 tag [], rfl, rfl⟩
theorem WellFormedForm.routeSearchSettle : WellFormedForm.Statement .routeSearchSettle :=
  ⟨.routeSearchSettle, rfl, rfl⟩
theorem WellFormedForm.exitTreeWalkStep : WellFormedForm.Statement .exitTreeWalkStep :=
  ⟨.exitTreeWalkStep, rfl, rfl⟩
theorem WellFormedForm.routeFormingEnd : WellFormedForm.Statement .routeFormingEnd :=
  ⟨.routeFormingEnd, rfl, rfl⟩
theorem WellFormedForm.routeEngineHalt : WellFormedForm.Statement .routeEngineHalt :=
  ⟨.routeEngineHalt, rfl, rfl⟩
theorem WellFormedForm.findScanStep : WellFormedForm.Statement .findScanStep :=
  ⟨.findScanStep, rfl, rfl⟩
theorem WellFormedForm.findFormingEnd : WellFormedForm.Statement .findFormingEnd :=
  ⟨.findFormingEnd, rfl, rfl⟩
theorem WellFormedForm.findEngineHalt : WellFormedForm.Statement .findEngineHalt :=
  ⟨.findEngineHalt, rfl, rfl⟩
theorem WellFormedForm.exitTreeBuildStart : WellFormedForm.Statement .exitTreeBuildStart :=
  ⟨.exitTreeBuildStart, rfl, rfl⟩
theorem WellFormedForm.exitTreeSettle : WellFormedForm.Statement .exitTreeSettle :=
  ⟨.exitTreeSettle, rfl, rfl⟩
theorem WellFormedForm.exitTreeBuildComplete : WellFormedForm.Statement .exitTreeBuildComplete :=
  ⟨.exitTreeBuildComplete, rfl, rfl⟩
theorem WellFormedForm.emergencySample (asserted : Bool) : WellFormedForm.Statement (.emergencySample asserted) :=
  ⟨.emergencySample asserted, rfl, rfl⟩
theorem WellFormedForm.replyFormed : WellFormedForm.Statement .replyFormed :=
  ⟨.replyFormed, rfl, rfl⟩

end Sys2Proof.Laws
end

