-- ==== Sys2Proof/Laws/Tables.lean ====
section
/-! SUPPORT. The laws of numbered stores: what is read after each operation, and that each keeps the numbers rising. -/

namespace Sys2Proof.Laws
open Sys2Proof.Machine

variable {α β : Type}

/-! ### Reading after an operation -/

@[simp] theorem tableGet_nil (k : Nat) : tableGet ([] : List (Nat × α)) k = none := rfl

@[simp] theorem tableGet_put_same (t : List (Nat × α)) (k : Nat) (v : α) : tableGet (tablePut t k v) k = some v := by
  induction t with
  | nil => simp [tablePut, tableGet]
  | cons p rest ih =>
    obtain ⟨j, w⟩ := p
    simp only [tablePut]
    split
    · simp [tableGet]
    · split
      · simp [tableGet]
      · simp only [tableGet]
        rw [if_neg (by omega)]
        exact ih

theorem tableGet_put_other (t : List (Nat × α)) {k m : Nat} (v : α) (h : m ≠ k) :
    tableGet (tablePut t k v) m = tableGet t m := by
  induction t with
  | nil => simp [tablePut, tableGet, Ne.symm h]
  | cons p rest ih =>
    obtain ⟨j, w⟩ := p
    simp only [tablePut]
    split
    · simp [tableGet, Ne.symm h]
    · split
      · subst_vars; simp [tableGet, Ne.symm h]
      · simp [tableGet, ih]

theorem tableGet_erase_other (t : List (Nat × α)) {k m : Nat} (h : m ≠ k) :
    tableGet (tableErase t k) m = tableGet t m := by
  induction t with
  | nil => rfl
  | cons p rest ih =>
    obtain ⟨j, w⟩ := p
    simp only [tableErase]
    split
    · subst_vars; simp [tableGet, Ne.symm h]
    · simp [tableGet, ih]

@[simp] theorem tableGet_map (f : Nat → α → β) (t : List (Nat × α)) (k : Nat) :
    tableGet (tableMap f t) k = (tableGet t k).map (f k) := by
  induction t with
  | nil => rfl
  | cons p rest ih =>
    obtain ⟨j, w⟩ := p
    simp only [tableMap, List.map_cons, tableGet] at *
    split
    · subst_vars; simp
    · exact ih

theorem tableGet_update_same (t : List (Nat × α)) (k : Nat) (f : α → α) :
    tableGet (tableUpdate t k f) k = (tableGet t k).map f := by simp [tableUpdate]

theorem tableGet_update_other (t : List (Nat × α)) {k m : Nat} (f : α → α) (h : m ≠ k) :
    tableGet (tableUpdate t k f) m = tableGet t m := by
  simp [tableUpdate, h]

/-! ### Membership -/

theorem mem_of_tableGet {t : List (Nat × α)} {k : Nat} {v : α} (h : tableGet t k = some v) : (k, v) ∈ t := by
  induction t with
  | nil => simp at h
  | cons p rest ih =>
    obtain ⟨j, w⟩ := p
    simp only [tableGet] at h
    split at h
    · simp_all
    · exact List.mem_cons_of_mem _ (ih h)

/-- In a sorted store a record that stands under a number is the one that is read there. -/
theorem tableGet_of_mem {t : List (Nat × α)} (hs : TableSorted t) {k : Nat} {v : α} (h : (k, v) ∈ t) :
    tableGet t k = some v := by
  induction t with
  | nil => simp at h
  | cons p rest ih =>
    obtain ⟨j, w⟩ := p
    obtain ⟨hj, hr⟩ := List.pairwise_cons.1 hs
    rcases List.mem_cons.1 h with h | h
    · simp_all [tableGet]
    · have := hj _ h
      simp only [tableGet]
      rw [if_neg (by simp at this; omega)]
      exact ih hr h

theorem tableGet_erase_same {t : List (Nat × α)} (hs : TableSorted t) (k : Nat) : tableGet (tableErase t k) k = none := by
  induction t with
  | nil => rfl
  | cons p rest ih =>
    obtain ⟨j, w⟩ := p
    obtain ⟨hj, hr⟩ := List.pairwise_cons.1 hs
    simp only [tableErase]
    split
    · subst_vars
      rcases h : tableGet rest j with _ | v
      · rfl
      · exact absurd (hj _ (mem_of_tableGet h)) (by simp)
    · simp_all [tableGet]

/-! ### The numbers of a store -/

theorem mem_put {t : List (Nat × α)} {k : Nat} {v : α} {p : Nat × α} (h : p ∈ tablePut t k v) :
    p = (k, v) ∨ p ∈ t := by
  induction t with
  | nil => simpa [tablePut] using h
  | cons q rest ih =>
    obtain ⟨j, w⟩ := q
    simp only [tablePut] at h
    split at h
    · simpa using h
    · split at h
      · rcases List.mem_cons.1 h with h | h
        · exact .inl h
        · exact .inr (List.mem_cons_of_mem _ h)
      · rcases List.mem_cons.1 h with h | h
        · exact .inr (h ▸ List.mem_cons_self)
        · exact (ih h).imp id (List.mem_cons_of_mem _)

theorem mem_erase {t : List (Nat × α)} {k : Nat} {p : Nat × α} (h : p ∈ tableErase t k) : p ∈ t := by
  induction t with
  | nil => simp [tableErase] at h
  | cons q rest ih =>
    obtain ⟨j, w⟩ := q
    simp only [tableErase] at h
    split at h
    · exact List.mem_cons_of_mem _ h
    · rcases List.mem_cons.1 h with h | h
      · exact h ▸ List.mem_cons_self
      · exact List.mem_cons_of_mem _ (ih h)

theorem tableMap_keys (f : Nat → α → β) (t : List (Nat × α)) :
    (tableMap f t).map (fun p => p.1) = t.map (fun p => p.1) := by
  simp [tableMap, Function.comp_def]

/-- The numbers after a put depend on the numbers before it alone. -/
theorem tablePut_keys (t : List (Nat × α)) (u : List (Nat × β)) (k : Nat) (v : α) (w : β)
    (h : t.map (fun p => p.1) = u.map (fun p => p.1)) :
    (tablePut t k v).map (fun p => p.1) = (tablePut u k w).map (fun p => p.1) := by
  induction t generalizing u with
  | nil => cases u with
    | nil => rfl
    | cons q u => simp at h
  | cons p t ih =>
    cases u with
    | nil => simp at h
    | cons q u =>
      obtain ⟨j, a⟩ := p
      obtain ⟨i, b⟩ := q
      simp only [List.map_cons, List.cons.injEq] at h
      obtain ⟨rfl, h⟩ := h
      simp only [tablePut]
      split
      · simp [h]
      · split
        · simp [h]
        · simp [ih u h]

theorem tableErase_keys (t : List (Nat × α)) (u : List (Nat × β)) (k : Nat)
    (h : t.map (fun p => p.1) = u.map (fun p => p.1)) :
    (tableErase t k).map (fun p => p.1) = (tableErase u k).map (fun p => p.1) := by
  induction t generalizing u with
  | nil => cases u with
    | nil => rfl
    | cons q u => simp at h
  | cons p t ih =>
    cases u with
    | nil => simp at h
    | cons q u =>
      obtain ⟨j, a⟩ := p
      obtain ⟨i, b⟩ := q
      simp only [List.map_cons, List.cons.injEq] at h
      obtain ⟨rfl, h⟩ := h
      simp only [tableErase]
      split
      · exact h
      · simp [ih u h]

/-! ### Every operation keeps the numbers rising -/

theorem tableSorted_nil : TableSorted ([] : List (Nat × α)) := List.Pairwise.nil

theorem tableSorted_put {t : List (Nat × α)} (h : TableSorted t) (k : Nat) (v : α) : TableSorted (tablePut t k v) := by
  induction t with
  | nil => simp [tablePut, TableSorted]
  | cons p rest ih =>
    obtain ⟨j, w⟩ := p
    obtain ⟨hj, hr⟩ := List.pairwise_cons.1 h
    simp only [tablePut]
    split
    · refine List.pairwise_cons.2 ⟨fun q hq => ?_, h⟩
      rcases List.mem_cons.1 hq with rfl | hq
      · assumption
      · have := hj q hq; simp at this ⊢; omega
    · split
      · subst_vars; exact List.pairwise_cons.2 ⟨hj, hr⟩
      · refine List.pairwise_cons.2 ⟨fun q hq => ?_, ih hr⟩
        rcases mem_put hq with rfl | hq
        · simp; omega
        · exact hj q hq

theorem tableSorted_erase {t : List (Nat × α)} (h : TableSorted t) (k : Nat) : TableSorted (tableErase t k) := by
  induction t with
  | nil => exact tableSorted_nil
  | cons p rest ih =>
    obtain ⟨j, w⟩ := p
    obtain ⟨hj, hr⟩ := List.pairwise_cons.1 h
    simp only [tableErase]
    split
    · exact hr
    · exact List.pairwise_cons.2 ⟨fun q hq => hj q (mem_erase hq), ih hr⟩

theorem tableSorted_map {t : List (Nat × α)} (h : TableSorted t) (f : Nat → α → β) : TableSorted (tableMap f t) := by
  simpa [tableMap, TableSorted, List.pairwise_map] using h

theorem tableSorted_update {t : List (Nat × α)} (h : TableSorted t) (k : Nat) (f : α → α) :
    TableSorted (tableUpdate t k f) := tableSorted_map h _

/-- Numbers that rise are a matter of the numbers alone. -/
theorem tableSorted_iff_keys (t : List (Nat × α)) :
    TableSorted t ↔ (t.map fun p => p.1).Pairwise (· < ·) := by
  simp [TableSorted, List.pairwise_map]

end Sys2Proof.Laws
end

