-- ==== Sys2Proof/Laws/Search.lean ====
section
/-! SUPPORT. What the operations on a search do, said once each: the place of an entry in a frontier, the record of a
node after a change, a relaxation, and the sources of a build (R94, R131, R133, R134, R183). -/

namespace Sys2Proof.Laws
open Sys2Proof.Machine Sys2Proof.Safety

/-! ### Frontiers (R131) -/

theorem frontierBefore_iff (e f : Nat × Nat) : frontierBefore e f = true ↔ e.1 < f.1 ∨ (e.1 = f.1 ∧ e.2 < f.2) := by
  simp [frontierBefore]

theorem inFrontier_iff (n : Nat) (l : List (Nat × Nat)) : inFrontier n l = true ↔ ∃ e ∈ l, e.2 = n := by
  simp [inFrontier]

theorem frontierInsert_perm (e : Nat × Nat) (l : List (Nat × Nat)) : (frontierInsert e l).Perm (e :: l) := by
  induction l with
  | nil => exact .refl _
  | cons f l ih =>
    simp only [frontierInsert]
    split
    · exact .refl _
    · exact (ih.cons f).trans (.swap e f l)

theorem frontierInsert_ordered (e : Nat × Nat) {l : List (Nat × Nat)}
    (h : l.Pairwise fun e f => frontierBefore e f = true) (hn : ∀ f ∈ l, f.2 ≠ e.2) :
    (frontierInsert e l).Pairwise fun e f => frontierBefore e f = true := by
  induction l with
  | nil => simp [frontierInsert]
  | cons f l ih =>
    rw [List.pairwise_cons] at h
    simp only [frontierInsert]
    split
    · rename_i hb
      refine List.pairwise_cons.2 ⟨fun g hg => ?_, List.pairwise_cons.2 h⟩
      rcases List.mem_cons.1 hg with rfl | hg
      · exact hb
      · have := h.1 g hg
        rw [frontierBefore_iff] at *; omega
    · rename_i hb
      refine List.pairwise_cons.2 ⟨fun g hg => ?_, ih h.2 fun g hg => hn g (List.mem_cons_of_mem _ hg)⟩
      rcases List.mem_cons.1 ((frontierInsert_perm e l).mem_iff.1 hg) with rfl | hg
      · have := hn f List.mem_cons_self
        rw [frontierBefore_iff] at *; omega
      · exact h.1 g hg

/-! ### Records (R130) -/

theorem recordOf_put_same (x : Search) (n : Nat) (r : NodeRecord) (f : List (Nat × Nat)) (a : Bool) :
    recordOf { records := tablePut x.records n r, frontier := f, approximate := a } n = r := by simp [recordOf]

theorem recordOf_put_other (x : Search) {n m : Nat} (r : NodeRecord) (f : List (Nat × Nat)) (a : Bool) (h : m ≠ n) :
    recordOf { records := tablePut x.records n r, frontier := f, approximate := a } m = recordOf x m := by
  simp [recordOf, tableGet_put_other _ _ h]

theorem recordOf_erase_same {x : Search} (hx : TableSorted x.records) (n : Nat) (f : List (Nat × Nat)) (a : Bool) :
    recordOf { records := tableErase x.records n, frontier := f, approximate := a } n = unreached := by
  simp [recordOf, tableGet_erase_same hx, unreached, unreachable]

theorem recordOf_erase_other (x : Search) {n m : Nat} (f : List (Nat × Nat)) (a : Bool) (h : m ≠ n) :
    recordOf { records := tableErase x.records n, frontier := f, approximate := a } m = recordOf x m := by
  simp [recordOf, tableGet_erase_other _ h]

/-! ### Relaxation (R94, R133, R134) -/

theorem recorded_insert (cost segment n : Nat) (records : List (Nat × NodeRecord)) {kept : List (Nat × Nat)} (a : Bool)
    (hk : ∀ f ∈ kept, f.2 ≠ n) (hs : kept.Pairwise fun e f => frontierBefore e f = true) :
    Recorded cost segment n kept
      { records := tablePut records n { cost := cost, via := some segment, settled := false }
        frontier := frontierInsert (cost, n) kept
        approximate := a } where
  node := by simp [recordOf]
  frontier := frontierInsert_perm _ _
  ordered := (frontierInsert_ordered (cost, n) hs hk).imp fun h => (frontierBefore_iff _ _).1 h

/-- An offer that is neither skipped nor without improvement reaches its node. -/
theorem offer_reaches {cost segment n : Nat} {x : Search} (h1 : cost < unreachable)
    (h2 : (recordOf x n).settled = false) (h3 : cost < (recordOf x n).cost) :
    offer cost segment n x = reach cost (some segment) n x := by
  simp [offer, Nat.not_le.2 h1, h2, h3]

/-- All that a relaxation to a node can do. -/
theorem offer_relaxed (cost segment n : Nat) {x : Search} (hx : SearchInv x) :
    Relaxed cost segment n x (offer cost segment n x) where
  skipped := by
    intro h
    unfold offer
    by_cases h1 : unreachable ≤ cost
    · rw [if_pos h1]
    · rw [if_neg h1]
      by_cases h2 : (recordOf x n).settled = true
      · rw [if_pos h2]
      · rw [if_neg h2, if_neg]
        rcases h with h | h | h
        · exact absurd h h1
        · exact absurd h h2
        · omega
  moved := by
    intro h1 h2 h3 h4
    rw [offer_reaches h1 h2 h3, reach, if_pos ((inFrontier_iff _ _).2 h4)]
    refine ⟨recorded_insert cost segment n _ _ ?_ (hx.ordered.filter _), fun m hm => ?_, rfl⟩
    · simp [List.mem_filter]
    · simp [recordOf, tableGet_put_other _ _ hm]
  inserted := by
    intro h1 h2 h3 h4 h5
    have hf : ¬inFrontier n x.frontier = true := by rw [inFrontier_iff]; exact fun ⟨f, hf, e⟩ => h4 f hf e
    rw [offer_reaches h1 h2 h3, reach, if_neg hf, if_pos h5]
    exact ⟨recorded_insert cost segment n _ _ h4 hx.ordered,
      fun m hm => by simp [recordOf, tableGet_put_other _ _ hm], rfl⟩
  dropped := by
    intro kept lastCost last h1 h2 h3 h4 h5 h6 h7
    have hf : ¬inFrontier n x.frontier = true := by rw [inFrontier_iff]; exact fun ⟨f, hf, e⟩ => h4 f hf e
    have hl : x.frontier.getLast? = some (lastCost, last) := by rw [h5]; simp
    rw [offer_reaches h1 h2 h3, reach, if_neg hf, if_neg (Nat.not_lt.2 h6), hl]
    simp only [if_pos h7]
    exact ⟨recordOf_erase_same hx.records n _ _, trivial, fun m hm => recordOf_erase_other x _ _ hm, trivial⟩
  displaced := by
    intro kept lastCost last h1 h2 h3 h4 h5 h6 h7
    have hf : ¬inFrontier n x.frontier = true := by rw [inFrontier_iff]; exact fun ⟨f, hf, e⟩ => h4 f hf e
    have hl : x.frontier.getLast? = some (lastCost, last) := by rw [h5]; simp
    have hk : x.frontier.dropLast = kept := by rw [h5]; simp
    have ho := hx.ordered
    rw [h5] at ho
    have hn : last ≠ n := h4 (lastCost, last) (by rw [h5]; simp)
    rw [offer_reaches h1 h2 h3, reach, if_neg hf, if_neg (Nat.not_lt.2 h6), hl]
    simp only [if_neg (Nat.not_le.2 h7), hk]
    refine ⟨recorded_insert cost segment n _ _ (fun f hf => h4 f (by rw [h5]; simp [hf]))
      (List.pairwise_append.1 ho).1, ?_, fun m hm hm' => ?_, trivial⟩
    · simp [recordOf, tableGet_put_other _ _ hn, tableGet_erase_same hx.records, unreached, unreachable]
    · simp [recordOf, tableGet_put_other _ _ hm, tableGet_erase_other _ hm']

/-! ### The sources of a build (R134, R183) -/

/-- What the insertion of sources in ascending node number gives: the first 512 at cost 0 in the frontier, those beyond
dropped with the approximate flag set. -/
structure Sources (exits : List Nat) (x : Search) : Prop where
  frontier : x.frontier = (exits.take 512).map fun n => (0, n)
  approximate : x.approximate = decide (512 < exits.length)
  records : TableSorted x.records
  each : ∀ n, recordOf x n = { cost := if n ∈ exits.take 512 then 0 else unreachable, via := none, settled := false }

theorem frontierInsert_last {n : Nat} {l : List Nat} (h : ∀ m ∈ l, m < n) :
    frontierInsert (0, n) (l.map fun m => (0, m)) = (l ++ [n]).map fun m => (0, m) := by
  induction l with
  | nil => rfl
  | cons m l ih =>
    have hm := h m List.mem_cons_self
    have hb : frontierBefore (0, n) (0, m) = false := by simp [frontierBefore, hm.le]
    simp [frontierInsert, hb, ih fun k hk => h k (List.mem_cons_of_mem _ hk)]

theorem sources_of_ascending {exits : List Nat} (h : exits.Pairwise (· < ·)) :
    Sources exits (exits.foldl (fun x n => reach 0 none n x) Search.empty) := by
  induction exits using List.reverseRecOn with
  | nil => exact ⟨rfl, rfl, tableSorted_nil, fun n => rfl⟩
  | append_singleton l n ih =>
    obtain ⟨hl, -, hn⟩ := List.pairwise_append.1 h
    have hn : ∀ m ∈ l, m < n := fun m hm => hn m hm n (by simp)
    have hs := ih hl
    rw [List.foldl_append, List.foldl_cons, List.foldl_nil]
    generalize l.foldl (fun x n => reach 0 none n x) Search.empty = x at hs
    have hnl : n ∉ l := fun hm => lt_irrefl _ (hn n hm)
    have hin : inFrontier n x.frontier = false := by
      rw [Bool.eq_false_iff, ne_eq, inFrontier_iff, hs.frontier]
      rintro ⟨e, he, rfl⟩
      obtain ⟨m, hm, rfl⟩ := List.mem_map.1 he
      exact hnl (List.mem_of_mem_take hm)
    have hlen : x.frontier.length = min 512 l.length := by simp [hs.frontier]
    by_cases hc : l.length < 512
    · have htl : l.take 512 = l := List.take_of_length_le hc.le
      have htn : (l ++ [n]).take 512 = l ++ [n] := List.take_of_length_le (by simp; omega)
      rw [reach, if_neg (by simp [hin]), if_pos (by simp [hlen, frontierCapacity]; omega)]
      refine ⟨?_, ?_, tableSorted_put hs.records _ _, fun m => ?_⟩
      · dsimp only
        rw [hs.frontier, htl, htn, frontierInsert_last hn]
      · rw [hs.approximate]; simp; omega
      · by_cases hm : m = n
        · subst hm; rw [recordOf_put_same, htn]; simp
        · rw [recordOf_put_other _ _ _ _ hm, htn]
          have := hs.each m
          rw [htl] at this
          simpa [recordOf, hm] using this
    · have htn : (l ++ [n]).take 512 = l.take 512 := by
        rw [List.take_append_of_le_length (by omega)]
      obtain ⟨last, hlast⟩ : ∃ last, x.frontier.getLast? = some (0, last) := by
        have : (l.take 512) ≠ [] := by intro h; simp at h; subst h; simp at hc
        rw [hs.frontier, List.getLast?_map, List.getLast?_eq_getLast_of_ne_nil this]; exact ⟨_, rfl⟩
      rw [reach, if_neg (by simp [hin]), if_neg (by simp [hlen, frontierCapacity]; omega), hlast]
      simp only [Nat.le_refl, if_true]
      refine ⟨by rw [htn]; exact hs.frontier, by simp; omega, tableSorted_erase hs.records _, fun m => ?_⟩
      by_cases hm : m = n
      · subst hm
        rw [recordOf_erase_same hs.records, htn, if_neg fun h => hnl (List.mem_of_mem_take h)]; rfl
      · rw [recordOf_erase_other _ _ _ hm, htn]; exact hs.each m

end Sys2Proof.Laws
end

