-- ==== Sys2Proof/Laws/Seconds.lean ====
section
/-! SUPPORT. What a second event counts, said once each: the ages of the load entries and the hold countdowns of the
live entries (R84, R114). -/

namespace Sys2Proof.Laws
open Sys2Proof.Machine Sys2Proof.Safety

theorem goesStale_iff (limit : Nat) (e : LoadEntry) : goesStale limit e = true ↔ staleNow limit e := by
  simp [goesStale, nextAge, staleNow, and_assoc]

theorem ageEntry_eq (limit : Nat) (e : LoadEntry) : ageEntry limit e = aged limit e := by
  by_cases hs : staleNow limit e
  · simp [ageEntry, aged, hs, (goesStale_iff limit e).2 hs, nextAge]
  · have hg : goesStale limit e = false := by simpa using mt (goesStale_iff limit e).1 hs
    by_cases hf : e.freshness = .fresh
    · simp [ageEntry, aged, hs, hg, hf, nextAge]
    · simp [ageEntry, aged, hs, hf]

theorem ageReadings_eq (s : State) : ageReadings s =
    { s with lm := agedMonitor s.config.staleLimit s.lm
             ep := { s.ep with flags := s.ep.flags ||| staleFlag s.config.staleLimit s.lm } } := by
  have hm : tableMap (fun _ e => ageEntry s.config.staleLimit e) s.lm.entries =
      s.lm.entries.map fun p => (p.1, aged s.config.staleLimit p.2) := by
    simp [tableMap, ageEntry_eq]
  have ha : (s.lm.entries.any fun p => goesStale s.config.staleLimit p.2) = true ↔
      ∃ p ∈ s.lm.entries, staleNow s.config.staleLimit p.2 := by
    simp [List.any_eq_true, goesStale_iff]
  by_cases h : ∃ p ∈ s.lm.entries, staleNow s.config.staleLimit p.2
  · simp only [ageReadings, ha.2 h, if_true, hm, raiseFlag, staleReading, agedMonitor, staleFlag, if_pos h]
  · have hf : (s.lm.entries.any fun p => goesStale s.config.staleLimit p.2) = false := by simpa using mt ha.1 h
    simp [ageReadings, hf, hm, agedMonitor, staleFlag, h]

theorem tableGet_aged (limit n : Nat) (lm : LoadMonitor) :
    tableGet (agedMonitor limit lm).entries n = (tableGet lm.entries n).map (aged limit) := by
  simpa [tableMap, agedMonitor] using tableGet_map (fun _ e => aged limit e) lm.entries n

theorem holdsCounted_map (entries : List QueryEntry) : holdsCounted entries (entries.map countHold) := by
  refine ⟨by simp, fun i e he => ⟨fun hold h => ?_, fun h => ?_⟩⟩
  · simp [he, countHold, h]
  · simp only [List.getElem?_map, he, Option.map_some]
    unfold countHold; split
    · exact absurd ‹_› (h _)
    all_goals rfl

end Sys2Proof.Laws
end

