-- ==== Sys2Proof/Tests/Slice0.lean ====
section
/-! SUPPORT. Tests on small states with results taken from the manual's worked examples and rules, and for every statement
with hypotheses a witness that they can be met. -/

namespace Sys2Proof.Tests
set_option Elab.async false
open Sys2Proof.Machine Sys2Proof.Safety

/-! ### Small states -/

/-- The state a command leads to. -/
def after (c : Instr) (s : State) : State :=
  match exec c s with
  | .next t => t
  | .fault _ => s
  | .refused _ => s

/-- A node with its adjacency list. -/
def node (floor : Nat) (kind : NodeKind) (x : Nat) (adjacency : List Nat) : Node :=
  { floor := floor, kind := kind, x := x, y := 0, adjacency := adjacency }

/-- A WALK between two nodes. -/
def walk (a b length : Nat) : Segment :=
  { endA := a, endB := b, length := length, kind := .walk, direction := .both, state := .opened, weight := 16 }

/-- A listing at one entrance. -/
def shop (name : List Nat) (status : ListingStatus) (forward : Option Nat) (count : Nat) : Listing :=
  { name := name, categories := [3], floor := 1, entrances := [20], status := status, forward := forward, hours := none,
    popularity := count, reachStandard := true, reachStepFree := true }

/-- A part in SERVICE: a kiosk at node 10, an entrance at 20, an exit at 30, two listings, station 0.00 at home. -/
def small : State :=
  { State.reset with
    service := .service
    ds := { listings := [(7, shop [11, 12] .opened none 9), (8, shop [12] .relocated (some 7) 0)], nameIndex := [7, 8] }
    wg := { nodes := [(10, node 1 .kiosk 0 [5]), (20, node 1 .entrance 300 [5, 6]),
                      (30, node 1 (.exit .usable) 400 [6])]
            segments := [(5, walk 10 20 300), (6, walk 20 30 100)]
            homes := (Vector.replicate 96 none).set 0 (some 10) }
    lm := { entries := [(5, newLoadEntry), (6, newLoadEntry)], congestedCount := 0, tripped := false } }

/-- The same part with the clock SET. -/
def timed (minute seconds : Nat) : State :=
  { small with cs := { small.cs with clock := { set := true, minute := minute, seconds := seconds } } }

/-- A FRESH load entry of an age. -/
def freshEntry (age : Nat) : LoadEntry := { newLoadEntry with freshness := .fresh, age := age }

/-- The same part with a FRESH entry of an age for segment 5. -/
def loaded (age : Nat) : State :=
  { small with lm := { small.lm with entries := [(5, freshEntry age), (6, newLoadEntry)] } }

/-- The same part with the record of station 0.00 changed. -/
def station (f : Station → Station) : State := updateStation 0 f small

/-- The same part with a POLL to station 0.00 out, the station in a state. -/
def polled (state : StationState) (f : Station → Station) : State :=
  updateTrunk 0 (fun k => { k with exchange := some { station := 0, probe := false, void := false } })
    (station fun st => f { st with state := state })

/-- An entry of station 0.00. -/
def entry (tag : Tag) (query : Query) (state : EntryState) (answer : Option Answer) : QueryEntry :=
  { addr := 0, tag := tag, query := query, state := state, epoch := some 3, answer := answer, slot := 0,
    cancelSlot := none }

def routeQuery : Query := .route (.listing 7) .standard none
def findQuery : Query := .find { typed := some [12], category := none, floor := none, openOnly := false }

/-- A find answer with no results. -/
def emptyAnswer : Answer :=
  .find { tag := 1, browse := false, epoch := 3, total := 0, returned := 0, pageCount := 0 } []

/-- A find answer with one page. -/
def pageAnswer : Answer :=
  .find { tag := 1, browse := false, epoch := 3, total := 1, returned := 1, pageCount := 1 }
    [{ number := 7, name := [11, 12], floor := 1, status := .opened, forward := none, openNow := true,
       reachStandard := true, reachStepFree := true }]

def withEntries (l : List QueryEntry) (s : State) : State := { s with qt := { entries := l } }

/-- The work record of a ROUTE of station 0.00 with tag 1. -/
def routeWork (phase : RoutePhase) (targets : List Nat) (outcome : Option RouteStatus) : RouteWork :=
  { addr := 0, tag := 1, phase := phase, profile := .standard, origin := some 10, targets := targets,
    finalListing := some 7, relocated := false, settles := 0, limit := 2048, outcome := outcome, reached := none,
    stands := 10, taken := [] }

/-- The part with a ROUTE entry of station 0.00 at the Route Engine. -/
def routing (phase : RoutePhase) (search : Search) (state : EntryState) : State :=
  { withEntries [entry 1 routeQuery state none] small with
    re := { work := some (routeWork phase [20] (if phase = .forming then some .noRoute else none)), search := search } }

/-- The work record of a FIND of station 0.00 with tag 1. -/
def findWork (forming : Bool) (position : Nat) : FindWork :=
  { addr := 0, tag := 1, browse := false,
    lookup := { typed := some [12], category := none, floor := none, openOnly := false }, forming := forming,
    clockSet := false, minute := 0, position := position, total := 0, results := [] }

/-- The part with a FIND entry of station 0.00 at the Find Engine. -/
def finding (forming : Bool) (position : Nat) (state : EntryState) : State :=
  { withEntries [entry 1 findQuery state none] small with fe := { work := some (findWork forming position) } }

/-- The part in a turn, with what the turn carries. -/
def turning (turn : TurnState) (w : TurnWork) : State :=
  { small with ec := { small.ec with turn := turn, work := w } }

/-- The part with the latch set and the unit in a state. -/
def evacuating (unit : UnitState) : State := { small with eu := { small.eu with latch := true, unit := unit } }

/-! ### Well-formed terms: one that each check refuses -/

theorem test_wf_reply : (Instr.reply 0).wellFormed = false := by decide
theorem test_wf_unknown : (Instr.unknownCommand 0x10 []).wellFormed = false := by decide
theorem test_wf_stale : (Instr.staleExpiry 4096).wellFormed = false := by decide
theorem test_wf_empty_late : (Instr.emptyReply 0 65).wellFormed = false := by decide
theorem test_wf_ready_late : (Instr.readyReply 0 65).wellFormed = false := by decide
theorem test_wf_probe_late : (Instr.probeReply 0 65 .ready).wellFormed = false := by decide
theorem test_wf_probe_kind : (Instr.probeReply 0 0 (.request 0 [0])).wellFormed = false := by decide
theorem test_wf_find : (Instr.findRequest 0 0 0 [0, 0, 0, 2, 11]).wellFormed = false := by decide
theorem test_wf_browse : (Instr.browseRequest 0 0 0 [0]).wellFormed = false := by decide
theorem test_wf_route : (Instr.routeRequest 0 0 0 []).wellFormed = false := by decide
theorem test_wf_page : (Instr.pageRequest 0 0 0 []).wellFormed = false := by decide
theorem test_wf_cancel : (Instr.cancelRequest 0 0 0 [0]).wellFormed = false := by decide
theorem test_wf_release : (Instr.releaseRequest 0 0 0 [0]).wellFormed = false := by decide
theorem test_wf_seen : (Instr.seenRequest 0 0 0 [0]).wellFormed = false := by decide
theorem test_wf_sleep : (Instr.sleepRequest 0 65 0 []).wellFormed = false := by decide
theorem test_wf_wake : (Instr.wakeRequest 0 0 0 [0]).wellFormed = false := by decide
theorem test_wf_accepts : (Instr.findRequest 0 64 15 [0, 0, 0, 1, 11]).wellFormed = true := by decide

/-! ### Formats -/

/-- R165: with this polynomial and start, without reflection, the digits 1 to 9 are known to give 0x29B1. -/
theorem test_check_word : checkWord [0x31, 0x32, 0x33, 0x34, 0x35, 0x36, 0x37, 0x38, 0x39] = 0x29B1 := by
  decide +kernel

/-- R192: the data of READ STATUS is 69 bytes. -/
theorem test_status_length : (encodeStatus State.reset).length = 69 := by decide +kernel

/-- R49, R161 by hand: 2000 + 3388 bit times fit in 8 ms at 1 M bit/s, and not at 500 k bit/s. -/
theorem test_link_timing : linkTimingOk (settingsOf Configuration.default) = true
    ∧ linkTimingOk { settingsOf Configuration.default with bitRate := .k500 } = false := by decide

/-- R151: a prefix matches at a word start only. -/
theorem test_prefix : prefixMatches [12] [11, 0, 12, 13] = true ∧ prefixMatches [12] [11, 12] = false := by decide

/-- No row gives bits, so no word spells a command. -/
theorem test_decode_none : decodeTableWord 8 0x10 = none := by decide

/-! ### One step of the edit port -/

/-- R48: the first staged edit of a part takes sequence number 0. -/
theorem test_retire_staged : (after (.retireListing (frameOf [0, 0, 7])) small).ep.forming =
    some (.fixed { status := .staged, data := [0, 0] }) := by decide +kernel

/-- R63, R73: in LOADING a retirement of a free slot is refused NO_SUCH_LISTING (18). -/
theorem test_retire_loading : (after (.retireListing (frameOf [0, 0, 9])) State.reset).ep.forming =
    some (.fixed { status := .refused, data := [18] }) := by decide +kernel

/-- R64: the kiosk node of a home is in use (19). -/
theorem test_remove_home : editTest (.removeNode 10) { small with wg := { small.wg with nodes :=
    [(10, node 1 .kiosk 0 [])] } } = some .nodeInUse := by decide +kernel

/-- R64: two nodes of one floor take no LIFT (21). -/
theorem test_floor_mismatch : editTest (.putSegment 9 { walk 10 30 5 with kind := .lift }.toSegmentForm) small =
    some .floorMismatch := by decide +kernel

/-- R15: retiring a listing takes it out of the index. -/
theorem test_retire_index : (applyEdit (.retireListing 7) small).1.ds.nameIndex = [8] := by decide +kernel

/-- R17: directory order puts A before B, so a listing A goes before the listings in the index. -/
theorem test_put_index : (applyEdit (.putListing 3
    { name := [11], categories := [3], floor := 1, entrances := [20], status := .opened, forward := none,
      hours := none }) small).1.ds.nameIndex = [3, 7, 8] := by decide +kernel

/-- R54: a SCHEDULE under an UNSET clock is refused NO_TIME (6). -/
theorem test_schedule_no_time : (after (.schedule (frameOf [0, 5, 0x12, 0, 0, 7])) small).ep.forming =
    some (.fixed { status := .refused, data := [6] }) := by decide +kernel

/-- R54: the first entry scheduled takes number 1. -/
theorem test_schedule_number : (after (.schedule (frameOf [0, 5, 0x12, 1, 0, 7])) (timed 9 0)).ep.forming =
    some (.fixed { status := .ok, data := [1] }) := by decide +kernel

/-- R56: the worked example, a queue of 63 at minute 599: one entry moves as 7041, the next becomes DUE. -/
def crowded : State :=
  { timed 599 59 with cs := { (timed 599 59).cs with
    queue := List.replicate 63 { edit := .retireListing 1, seq := 0 }, nextSeq := 7041
    schedule := [{ number := 2, edit := .setSegmentState 812 .opened, urgent := true, minute := 600, due := false },
                 { number := 5, edit := .setListingStatus 230 .opened none, urgent := true, minute := 600, due := false },
                 { number := 1, edit := .setExit 1410 .usable, urgent := true, minute := 601, due := false }] } }

theorem test_minute_example : (after .minuteEvent crowded).cs.queue.getLast? =
      some { edit := .setSegmentState 812 .opened, seq := 7041 }
    ∧ (after .minuteEvent crowded).cs.schedule.map (fun e => (e.number, e.due)) = [(5, true), (1, false)]
    ∧ (after .minuteEvent crowded).ep.flags = 32 ∧ (after .minuteEvent crowded).ec.turn = .draining := by
  decide +kernel

/-- R52: the same part sent SET TIME 640: the third entry finds the queue full as well. -/
theorem test_set_time_example : (after (.setTime (frameOf (be16 640))) crowded).cs.schedule.map
    (fun e => (e.number, e.due)) = [(5, true), (1, true)] := by decide +kernel

/-- R78, R79: with threshold 128 and hysteresis 16 a reading of 132 makes weight 16 + 20/4. -/
theorem test_load : ((tableGet (after (.load (frameOf [0, 5, 132])) small).lm.entries 5).map
    fun e => (e.congested, e.weight, e.episodes)) = some (true, 21, 1) := by decide +kernel

/-- R85: a reading for a free number is counted as ignored. -/
theorem test_load_ignored : (after (.load (frameOf [0, 5, 7, 0, 4, 7])) small).ep.forming =
    some (.fixed { status := .ok, data := [1, 1] }) := by decide +kernel

/-- R86: a threshold of 0 is refused. -/
theorem test_threshold : (after (.setThreshold (frameOf [0, 5, 0])) small).ep.forming =
    some (.fixed { status := .refused, data := [1] }) := by decide +kernel

/-- R87: the reply begins with C. -/
theorem test_read_load : (after (.readLoad (frameOf [0, 5, 1, 0])) small).ep.forming =
    some (.fixed { status := .ok, data := [0, 0, 0, 5, 0, 128, 0, 16, 0, 0] }) := by decide +kernel

/-- R45, R198: an EXIT with its state and one segment. -/
theorem test_read_node : (after (.readNode (frameOf [0, 30])) small).ep.forming =
    some (.fixed { status := .ok, data := [0, 30, 1, 3, 0, 1, 144, 0, 0, 1, 0, 6] }) := by decide +kernel

/-- R11, R22: listing 7 with hours 540 to 600 is taken at minute 599. A minute event before the reply is formed closes it:
bit 0 of byte 12 of the reply. -/
theorem test_open_now_deferred :
    let s := { timed 599 59 with ds := { small.ds with listings :=
      [(7, { shop [11] .opened none 9 with hours := some { opens := 540, closes := 600 } })] } }
    let read := after (.readListing (frameOf [0, 7])) s
    (after .replyFormed read).ep.reply.data[12]? = some 7
      ∧ (after .replyFormed (after .minuteEvent read)).ep.reply.data[12]? = some 6 := by decide +kernel

/-- R177: a station that was listed goes out with its state when the reply is formed, and its new flag stays. -/
theorem test_changes_deferred :
    let read := after (.readStationChanges (frameOf [])) (station fun st => { st with changed := true })
    (after .replyFormed (changeState 0 .attached read)).ep.reply.data = [0, 1]
      ∧ (stationAt (changeState 0 .attached read) 0).changed = true := by decide +kernel

/-- R45: a free segment is refused NO_SUCH (7). -/
theorem test_read_segment : (after (.readSegment (frameOf [0, 7])) small).ep.forming =
    some (.fixed { status := .refused, data := [7] }) := by decide +kernel

/-- R20: a span of one listing. -/
theorem test_read_counts : (after (.readCounts (frameOf [0, 7, 1, 1])) small).ep.forming =
      some (.fixed { status := .ok, data := [0, 7, 0, 9] })
    ∧ ((tableGet (after (.readCounts (frameOf [0, 7, 1, 1])) small).ds.listings 7).map fun l => l.popularity) =
      some 0 := by decide +kernel

/-- R177: the reserved and filled slots and the change flag of a station record. -/
theorem test_read_station : (after (.readStation (frameOf [0, 0, 0])) (station fun st =>
      { appendSlot none { st with overruns := 2 } with changed := true })).ep.forming =
    some (.fixed { status := .ok, data := [0, 0, 10, 15, 255, 0, 0, 0, 0, 0, 1, 2, 1] }) := by decide +kernel

/-- R175: trunk 6 does not exist. -/
theorem test_station_range : (after (.readStation (frameOf [6, 0, 0])) small).ep.forming =
    some (.fixed { status := .refused, data := [1] }) := by decide +kernel

/-- R172, R175: a narrower subscription takes groups from the pending mask. -/
theorem test_subscription : (stationAt (after (.setSubscription (frameOf [0, 0, 0, 3]))
    (station fun st => { st with state := .enabled, pendingMask := 6 })) 0).pendingMask = 2 := by decide +kernel

/-- R191: an acknowledgment clears the flags it names. -/
theorem test_ack : (after (.ackAttention (frameOf [1])) { small with ep := { small.ep with flags := 3 } }).ep.flags = 2 := by
  decide +kernel

/-- R189: a REPLY of a REFUSED with its reason, and 0x00 beyond it. -/
theorem test_reply : (after (.reply 5) { small with ep := { small.ep with
    reply := { status := .refused, overrun := true, data := [7] } } }).ep.miso = [0, 130, 1, 7, 0] := by decide +kernel

/-! ### One step of time and of a turn -/

/-- R50: the seconds advance. -/
theorem test_second : (after .secondEvent (timed 5 7)).cs.clock = { set := true, minute := 5, seconds := 8 } := by
  decide +kernel

/-- R84: at a limit of 60 s the 59th second event leaves an entry FRESH; the 60th makes it STALE with STALE_READING set,
and a STALE entry ages no further. -/
theorem test_stale :
    (tableGet (after .secondEvent (loaded 58)).lm.entries 5).map (fun e => (e.age, e.freshness)) = some (59, .fresh)
    ∧ (tableGet (after .secondEvent (loaded 59)).lm.entries 5).map (fun e => (e.age, e.freshness)) = some (60, .stale)
    ∧ ((after .secondEvent (loaded 58)).ep.flags, (after .secondEvent (loaded 59)).ep.flags) = (0, 8)
    ∧ (after .secondEvent (after .secondEvent (loaded 59))).lm = (after .secondEvent (loaded 59)).lm := by decide +kernel

/-- R84: the row STALE_EXPIRY is the second event at which the entry becomes STALE, and none before it. -/
theorem test_stale_expiry : after (.staleExpiry 5) (loaded 59) = after .secondEvent (loaded 59)
    ∧ after (.staleExpiry 5) (loaded 58) = loaded 58 ∧ after (.staleExpiry 6) (loaded 59) = loaded 59 := by
  decide +kernel

/-- R51: the minute after 1439 is 0, and it is a rollover. -/
theorem test_rollover : (after .secondEvent (timed 1439 59)).cs.clock = { set := true, minute := 0, seconds := 0 }
    ∧ (after .secondEvent (timed 1439 59)).ec.rollover = true := by decide +kernel

/-- R19, R62: rollover work returns listings to OPEN and halves counts. -/
theorem test_rollover_work : rolloverListings false [(7, shop [11] .closedToday none 9)] =
    [(7, shop [11] .opened none 4)] := by decide +kernel

/-- R72: an expiry that waits counts as made before a TURN that starts the turn, and none arrives during it. -/
theorem test_expiry_before_turn :
    let s := { small with ec := { small.ec with expiring := true } }
    ((after (.turn (frameOf [])) s).ec.wanted, (after (.turn (frameOf [])) s).ec.expiring) = (true, false)
      ∧ (after .autoTurnExpiry { s with ec := { s.ec with turn := .draining } }).ec.wanted = false := by decide +kernel

/-- R8: a forward to a free slot is repaired. -/
theorem test_repair : (tableGet (repairAll [(8, shop [12] .relocated (some 9) 0)]) 8).map
    (fun l => (l.status, l.forward)) = some (.closed, none) := by decide +kernel

/-- R68: the home reaches the entrance; with the segment closed it does not. -/
theorem test_flood : flood .standard small.wg = [10, 20, 30]
    ∧ flood .standard (setSegmentState small.wg 5 (walk 10 20 300) .closed) = [10] := by decide +kernel

/-- R70: a turn advances the epoch from 65535 to 0 and sets TURN_DONE. -/
theorem test_turn_complete :
    (after .turnComplete { turning .validating { TurnWork.initial with validation := .completion } with
      ec := { (turning .validating { TurnWork.initial with validation := .completion }).ec with epoch := 65535 } }).ec.epoch
      = 0
    ∧ (after .turnComplete (turning .validating { TurnWork.initial with validation := .completion })).ep.flags = 1 := by
  decide +kernel

/-! ### One step of the link -/

/-- R163: after station 3 the rotation comes to 4, and to 3 itself last. -/
theorem test_rotation : firstAfter 3 (fun n => n == 2 || n == 3) = some 2 ∧ firstAfter 3 (fun n => n == 3) = some 3 := by
  decide

/-- R160: the frame number wraps from 4095 to 0. -/
theorem test_frame_wrap : (trunkAt (after (.frameStart 2) (updateTrunk 2 (fun k => { k with frame := 4095 }) small)) 2).frame
    = 0 := by decide +kernel

/-- R168: READY within the countdown enables the station with its whole subscription pending. -/
theorem test_ready : (stationAt (after (.readyReply 0 5) (polled .resetting fun st => { st with countdown := 2 })) 0).state
      = .enabled
    ∧ (stationAt (after (.readyReply 0 5) (polled .resetting fun st => { st with countdown := 2 })) 0).pendingMask
      = BitVec.allOnes 12 := by decide +kernel

/-- R165: the sixth miss in a row faults a station at the default limit. -/
theorem test_fault_limit :
    (stationAt (after (.replyWindowClose 0) (polled .enabled fun st => { st with misses := 5 })) 0).state = .faulted
    ∧ (stationAt (after (.replyWindowClose 0) (polled .enabled fun st => { st with misses := 4 })) 0).state = .enabled := by
  decide +kernel

/-- R164: the worked example of a lost acknowledgment, at its reply EMPTY. -/
theorem test_acknowledged : (acknowledge { Station.initial with misses := 1, nextPlace := 3, queue :=
    [{ place := 1, content := some (3, .cancelled), inFlight := true },
     { place := 2, content := some (3, .cancelled), inFlight := false }] }) =
    { Station.initial with misses := 0, delivery := true, nextPlace := 3, queue :=
    [{ place := 2, content := some (3, .cancelled), inFlight := false }] } := by decide

/-- R171: a request that finds four slots in use is an overrun. -/
theorem test_overrun : (stationAt (after (.routeRequest 0 5 2 [0, 0, 7, 0, 255, 255])
    (polled .enabled fun st => appendSlot none (appendSlot none (appendSlot none (appendSlot none st))))) 0).overruns
    = 1 := by decide +kernel

/-- R111: a ROUTE admitted to an idle engine is WORKING at once, its search begun at the home. -/
theorem test_route_admitted :
    ((after (.routeRequest 0 5 2 [0, 0, 7, 0, 255, 255]) (polled .enabled id)).qt.entries.map fun e => e.state)
      = [.working]
    ∧ (after (.routeRequest 0 5 2 [0, 0, 7, 0, 255, 255]) (polled .enabled id)).re.search.frontier = [(0, 10)] := by
  decide +kernel

/-- R106: a ROUTE to a free listing is refused NO_TARGET. -/
theorem test_no_target : (stationAt (after (.routeRequest 0 5 2 [0, 0, 9, 0, 255, 255]) (polled .enabled id)) 0).queue
    = [{ place := 0, content := some (2, .refused .noTarget), inFlight := false }] := by decide +kernel

/-- R107: a FIND with a prefix of no symbols is refused BAD_REQUEST. -/
theorem test_bad_request : (stationAt (after (.findRequest 0 5 2 [0, 0, 0, 0]) (polled .enabled id)) 0).queue
    = [{ place := 0, content := some (2, .refused .badRequest), inFlight := false }] := by decide +kernel

/-- R115: page 2 of an answer with one page is refused BAD_PAGE. -/
theorem test_bad_page : ((stationAt (after (.pageRequest 0 5 1 [2]) (withEntries
    [entry 1 findQuery (.ready 4) (some pageAnswer)] (polled .enabled fun st => { st with nextPlace := 1 }))) 0).queue)
    = [{ place := 1, content := some (1, .refused .badPage), inFlight := false }] := by decide +kernel

/-- R174: SEEN from a DORMANT station first makes it ENABLED. -/
theorem test_seen : (stationAt (after (.seenRequest 0 5 0 [0, 4]) (polled .dormant fun st => { st with pendingMask := 6 })) 0).state
      = .enabled
    ∧ (stationAt (after (.seenRequest 0 5 0 [0, 4]) (polled .dormant fun st => { st with pendingMask := 6 })) 0).pendingMask
      = 2 := by decide +kernel

/-! ### One step of an engine -/

/-- R96, R133 by hand: the settle of the origin relaxes 300 dm at weight 16, and the target is next. -/
theorem test_settle : (after .routeSearchSettle (routing .searching (beginSearch 10) .working)).re.search.frontier.map
    (fun e => e.2) = [20] := by decide +kernel

/-- R132: the settle of a target ends the search FOUND. -/
theorem test_found : ((after .routeSearchSettle (routing .searching (beginSearch 20) .working)).re.work.map
    fun w => (w.phase, w.outcome, w.reached)) = some (.forming, some .found, some 20) := by decide +kernel

/-- R118: a HALTING entry is freed with CANCELLED at the engine's boundary. -/
theorem test_halt : (after .routeEngineHalt { routing .searching (beginSearch 10) (.halting .cancel) with
    pending := [] }).qt.entries = [] := by decide +kernel

/-- R150: the scan examines the listing at its position. -/
theorem test_scan : ((after .findScanStep (finding false 1 .working)).fe.work.map fun w => (w.position, w.total)) =
    some (2, 1) := by decide +kernel

/-- R183: the usable exit is the one source of the tree. -/
theorem test_tree_start : (after .exitTreeBuildStart (evacuating .off)).eu.tree.frontier = [(0, 30)] := by decide +kernel

/-- R184: a build whose frontier is empty completes. -/
theorem test_tree_complete : (after .exitTreeBuildComplete (evacuating .building)).eu.unit = .active := by decide +kernel

/-- R179: the third asserted sample in a row is an evacuation entry. -/
theorem test_third_sample : (after (.emergencySample true) { small with eu := { small.eu with differing := 2 } }).eu.latch
    = true := by decide +kernel

/-! ### Witnesses: the hypotheses of each statement can be met -/

theorem witness_StepTakesFrontCommand : State.reset.pending = [] := rfl

theorem witness_ResetHoldsAndClears :
    ({ small with resetHeld := true }).resetHeld = true ∧ Instr.poll 0 ≠ .resetAssert ∧ Instr.poll 0 ≠ .resetRelease
      ∧ small.resetHeld = false ∧ taking small := by decide +kernel

/-- A part that works on a ROUTE of station 0.00, with one step of the engine waiting. -/
def working : State := { routing .searching (beginSearch 10) .working with pending := [.routeSearchSettle] }

theorem engineInv_working : EngineInv working where
  latch := by decide
  distinct := by decide
  route := by simp [working, routing, withEntries, routeWork, entry]
  find := by simp [working, routing, withEntries, entry, isRoute, routeQuery]
  routeWork := by
    rintro w ⟨⟩
    exact ⟨_, List.mem_singleton.2 rfl, rfl, rfl, rfl, rfl⟩
  findWork := by rintro w ⟨⟩
  expiry := by decide
  turn := by decide
  build := by decide

theorem witness_StepKeepsEngineInv : EngineInv working ∧ (∃ t, step working = .next t)
    ∧ ∃ e ∈ working.qt.entries, e.state = .working ∧ isRoute e = true :=
  ⟨engineInv_working, ⟨_, rfl⟩, _, by simp [working, routing, withEntries]; rfl, rfl, rfl⟩

/-- One live entry alone is within the bounds of the query table. -/
theorem tableInv_single {s : State} {e : QueryEntry} (h : s.qt.entries = [e]) : TableInv s :=
  ⟨by simp [h], fun a => (List.length_filter_le _ _).trans (by simp [h]), by simp [h]⟩

theorem tableInv_working : TableInv working := tableInv_single rfl

theorem witness_StepKeepsTableInv : TableInv working ∧ ∃ t, step working = .next t := ⟨tableInv_working, _, rfl⟩

/-- The bounds of the answer queues, one by one. -/
theorem queuesInv_of {s : State} (h : ∀ a : Addr, (stationAt s a).queue.length ≤ 4
    ∧ ((stationAt s a).queue.Pairwise fun x y => x.place < y.place)
    ∧ (∀ x ∈ (stationAt s a).queue, x.place < (stationAt s a).nextPlace)
    ∧ ((stationAt s a).queue.filter fun x => x.inFlight).length ≤ 1
    ∧ ∀ x ∈ (stationAt s a).queue, x.inFlight = true → x.content.isSome = true)
    (he : ∀ e ∈ s.qt.entries, e.slot < (stationAt s e.addr).nextPlace) : QueuesInv s :=
  ⟨fun a => ⟨(h a).1, (h a).2.1, (h a).2.2.1, (h a).2.2.2.1, (h a).2.2.2.2⟩, he⟩

/-- Station 0.00 ENABLED and polled, with a filled slot and a reserved one, the first in flight. -/
def carrying : State :=
  polled .enabled fun st => { st with nextPlace := 2, queue :=
    [{ place := 0, content := some (1, .cancelled), inFlight := true },
     { place := 1, content := none, inFlight := false }] }

theorem queuesInv_carrying : QueuesInv carrying := queuesInv_of (by decide +kernel) (by decide +kernel)

theorem witness_StepKeepsStationsInv : QueuesInv { carrying with pending := [.emptyReply 0 64] }
    ∧ (∃ t, step { carrying with pending := [.emptyReply 0 64] } = .next t)
    ∧ MasksInv { (polled .enabled fun st => { st with pendingMask := 6 }) with pending := [.seenRequest 0 0 0 [0, 2]] }
    ∧ ∃ t, step { (polled .enabled fun st => { st with pendingMask := 6 }) with
        pending := [.seenRequest 0 0 0 [0, 2]] } = .next t :=
  ⟨⟨queuesInv_carrying.slots, queuesInv_carrying.entries⟩, ⟨_, rfl⟩, by decide +kernel, _, rfl⟩

/-- The small part with an edit at the head of the staged queue and its application waiting. -/
def editing : State :=
  { turning .applying { TurnWork.initial with remaining := 1 } with
    cs := { small.cs with queue := [{ edit := .putSegment 9 (walk 10 30 5).toSegmentForm, seq := 0 }] }
    pending := [.applyStagedEdit] }

theorem graphInv_editing : GraphInv editing where
  staged := by decide +kernel
  scheduled := by decide +kernel
  config := by decide +kernel
  nodes := by decide +kernel
  segments := by decide +kernel
  numbers := by decide +kernel
  adjacency := by decide +kernel
  degree := by decide +kernel
  ends := by decide +kernel
  floors := by decide +kernel
  entrances := by decide +kernel
  homes := fun a n h => by
    have one : ∀ b : Addr, editing.wg.homes[b] = none ∨ editing.wg.homes[b] = some 10 := by decide +kernel
    rcases one a with h' | h' <;> rw [h'] at h <;> cases h
    decide +kernel

theorem witness_StepKeepsGraphInv : GraphInv editing ∧ ∃ t, step editing = .next t := ⟨graphInv_editing, _, rfl⟩

theorem frontiersInv_working : FrontiersInv working :=
  ⟨⟨by decide +kernel, by decide +kernel, by decide +kernel, by decide +kernel, by decide +kernel⟩,
    ⟨by decide +kernel, by decide +kernel, by decide +kernel, by decide +kernel, by decide +kernel⟩⟩

theorem witness_StepKeepsFrontiersInv : FrontiersInv working ∧ ∃ t, step working = .next t :=
  ⟨frontiersInv_working, _, rfl⟩

theorem witness_StepKeepsLoadInv : LoadInv { small with pending := [.load (frameOf [0, 5, 132])] }
    ∧ ∃ t, step { small with pending := [.load (frameOf [0, 5, 132])] } = .next t :=
  ⟨⟨by decide, by decide, by decide, by decide, by decide⟩, _, rfl⟩

theorem indexInv_small : IndexInv small := by
  refine ⟨by decide, by decide +kernel, fun n => ?_⟩
  by_cases h : 7 = n
  · simp [small, inUse, tableGet, h]
  · by_cases h' : 8 = n
    · subst h'; decide
    · simpa [small, inUse, tableGet, h, h'] using ⟨Ne.symm h, Ne.symm h'⟩

theorem witness_StepKeepsIndexInv : IndexInv { small with pending := [.readListing (frameOf [0, 7])] }
    ∧ ∃ t, step { small with pending := [.readListing (frameOf [0, 7])] } = .next t :=
  ⟨⟨indexInv_small.sorted, indexInv_small.ordered, indexInv_small.holds⟩, _, rfl⟩

theorem witness_StepKeepsStageInv : StageInv { crowded with pending := [.minuteEvent] }
    ∧ ∃ t, step { crowded with pending := [.minuteEvent] } = .next t :=
  ⟨⟨by decide +kernel, by decide, by decide +kernel, by decide, by decide, by decide, by decide, by decide⟩, _, rfl⟩

/-- The same part while a command is being taken. -/
def pendingReply : State :=
  { small with ep := { small.ep with reply := { status := .pending, overrun := false, data := [] }
                                     forming := some (.fixed (okReply [])) } }

theorem witness_FramesAndReplies :
    (frameBytes (.turn [0]) = some [0] ∧ pendingReply.resetHeld = false ∧ pendingReply.ep.reply.status = .pending)
    ∧ (0x7E : Byte) ∉ hostKinds
    ∧ (frameBytes (.turn [1]) = some [1] ∧ taking small ∧ frameWhole [1] = false)
    ∧ (fixedLength (.turn (frameOf [0])) = some 0 ∧ frameBytes (.turn (frameOf [0])) = some (frameOf [0]))
    ∧ (frameWhole [0] = true ∧ frameWhole [] = false)
    ∧ (frameBytes (.turn [251]) = some (251 :: []) ∧ 250 < (251 : Byte).toNat)
    ∧ ((List.replicate 15 (0 : Byte)).length ≠ 14 ∧ [(0 : Byte)].length % 3 ≠ 0 ∧ [(0 : Byte), 0].length < 3)
    ∧ (editKindOf (byteAt [0, 0, 0x12, 0] 2) = some .retireListing ∧ editFits .retireListing ([0, 0, 0x12, 0].drop 3) = false)
    ∧ (3 ≤ [(0 : Byte), 0, 0x1B].length ∧ editKindOf (byteAt [0, 0, 0x1B] 2) = none)
    ∧ ({ small.ep with miso := [0x80] }).miso[0 / 8]? = some 0x80
    ∧ (small.resetHeld = false ∧ pendingReply.ep.forming = some (.fixed (okReply []))) := by decide +kernel

/-- R188: a frame with bytes beyond its length byte's count is taken as the frame without them. -/
theorem test_bytes_beyond : (after (.turn (frameOf [] ++ [1, 2])) small).ec.turn = .draining
    ∧ (after (.turn (frameOf [] ++ [1, 2])) small).ep.forming = some (.fixed (okReply []))
    ∧ (after (.turn (frameOf [] ++ [1, 2])) small).ep.miso.length = 4 := by decide +kernel

theorem witness_FramesAndReplies_beyond : Instr.fullReset ∈ frameCommands ∧ taking small
    ∧ (takenForming 4 (.listing 7 (shop [11] .opened none 9)) small).ep.forming
      = some (.listing 7 (shop [11] .opened none 9))
    ∧ (takenForming 2 (.changes [0, 95]) small).ep.forming = some (.changes [0, 95]) :=
  ⟨by simp [frameCommands], by decide +kernel, rfl, rfl⟩

theorem witness_EditsStaged : taking small ∧ small.service ≠ .loading
    ∧ (editFits .retireListing [0, 4, 0] = true ∧ editOf .retireListing [0, 4, 0] = none)
    ∧ (editFits .retireListing [1, 3, 255] = true ∧ editOf .retireListing [1, 3, 255] = some (.retireListing 1023))
    ∧ small.cs.queue.length < 64
    ∧ 64 ≤ ({ crowded.cs with queue := List.replicate 64 { edit := .retireListing 1, seq := 0 } }).queue.length := by
  decide +kernel

/-- A PUT LISTING payload at the ends of its ranges and one of a SET HOME that names no node carry their edits. -/
theorem witness_EditsStaged_carried :
    EditCarried .putListing [0, 3, 255, 7, 4, 0, 1, 5, 159, 0, 0, 1, 63, 1, 7, 255, 2, 39, 11]
      (.putListing 1023 { name := [39, 11], categories := [63], floor := 7, entrances := [2047], status := .relocated,
                          forward := some 1, hours := some { opens := 1439, closes := 0 } })
    ∧ EditCarried .setHome [1, 5, 15, 255, 255] (.setHome 95 none) := by
  refine ⟨⟨rfl, by decide, by decide, by decide, ?_, ?_⟩, rfl, by decide, by decide, by decide, by decide, by simp⟩
  · constructor <;> decide
  · refine ⟨⟨by decide, by decide, by decide, fun i => ?_⟩, by decide, by decide, by decide, ?_, by rintro h ⟨⟩; decide⟩
    · rcases i with - | - | i <;> simp
    · exact ⟨1, rfl, by decide⟩

/-- Payloads just outside a range, and with a code byte outside its list, carry no edit. -/
theorem test_edit_forms : editOf .putNode [0, 0, 9, 7, 5, 16, 0, 0, 0, 0] = none
    ∧ editOf .putNode [0, 0, 9, 8, 5, 15, 0, 0, 0, 0] = none ∧ editOf .putNode [0, 0, 9, 7, 0, 0, 0, 0, 0, 0] = none
    ∧ editOf .putSegment [0, 0, 5, 0, 1, 0, 2, 16, 0, 0, 0, 0] = none
    ∧ editOf .setListingStatus [0, 0, 7, 4, 0, 7] = none ∧ editOf .setHome [0, 6, 0, 0, 1] = none := by decide +kernel

theorem witness_LoadingAppliesEdits : taking { small with service := .loading }
    ∧ editFits .retireListing [0, 0, 7] = true ∧ editOf .retireListing [0, 0, 7] = some (.retireListing 7)
    ∧ editTest (.retireListing 7) { small with service := .loading } = none
    ∧ editTest (.retireListing 9) { small with service := .loading } = some .noSuchListing := by decide +kernel

theorem witness_ListingEditsApplied : tableGet small.ds.listings 9 = none
    ∧ tableGet small.ds.listings 7 = some (shop [11, 12] .opened none 9) ∧ TableSorted small.ds.listings
    ∧ IndexInv small ∧ (shop [11, 12] .opened none 9).name ≠ [13] :=
  ⟨by decide +kernel, by decide +kernel, by decide +kernel, indexInv_small, by decide⟩

theorem witness_GraphEditsApplied : tableGet small.wg.nodes 2047 = none
    ∧ tableGet small.wg.nodes 30 = some (node 1 (.exit .usable) 400 [6]) ∧ TableSorted small.wg.nodes
    ∧ (10 ≠ 30 ∧ tableGet small.wg.segments 4095 = none)
    ∧ (tableGet small.wg.segments 5 = some (walk 10 20 300) ∧ TableSorted small.wg.segments
      ∧ TableSorted small.lm.entries ∧ (walk 10 20 300).endA ≠ (walk 10 20 300).endB)
    ∧ tableGet [(5, { newLoadEntry with congested := true })] 5 = some { newLoadEntry with congested := true } := by
  decide +kernel

theorem witness_OpenNowDecided : ∀ h, (shop [11] .opened none 0).hours = some h → h.opens ≠ h.closes := by
  intro h e; exact absurd e (by simp [shop])

theorem witness_ScheduleAdds : taking (timed 9 0)
    ∧ (scheduleFits [5, 160, 0x12, 0, 0, 7] = true ∧ 1439 < wordAt [5, 160, 0x12, 0, 0, 7] 0)
    ∧ (scheduleFits [5, 159, 0x12, 0, 0, 7] = true ∧ wordAt [5, 159, 0x12, 0, 0, 7] 0 ≤ 1439
      ∧ editKindOf (byteAt [5, 159, 0x12, 0, 0, 7] 2) = some .retireListing
      ∧ editOf .retireListing ([5, 159, 0x12, 0, 0, 7].drop 3) = some (.retireListing 7))
    ∧ small.cs.clock.set = false ∧ (timed 9 0).cs.clock.set = true
    ∧ (crowded.cs.schedule.length < 32 ∧ crowded.cs.schedule.Pairwise fun e f => e.minute ≤ f.minute)
    ∧ 32 ≤ (List.replicate 32 ({ number := 1, edit := .retireListing 7, urgent := false, minute := 0, due := true }
        : Scheduled)).length := by decide +kernel

theorem witness_UnscheduleRemoves : taking crowded ∧ (∃ e ∈ crowded.cs.schedule, e.number = (5 : Byte).toNat)
    ∧ (∀ e ∈ crowded.cs.schedule, e.number ≠ (255 : Byte).toNat) ∧ (5 : Byte) ≠ 0 ∧ (255 : Byte) ≠ 0 := by
  decide +kernel

theorem witness_PassServesInOrder : crowded.cs.nextSeq < 65536
    ∧ (crowded.cs.schedule.filter fun e => e.minute == 601).length ≤ 64 - crowded.cs.queue.length
    ∧ crowded.cs.schedule = crowded.cs.schedule.take 1 ++ crowded.cs.schedule.drop 1
    ∧ ((crowded.cs.schedule.take 1).filter fun e => e.minute == 600).length = 64 - crowded.cs.queue.length := by
  decide +kernel

/-- The crowded part with its first two entries DUE and an auto-turn expiry that waits. -/
def crowdedExpiring : State :=
  { crowded with
    cs := { crowded.cs with schedule := crowded.cs.schedule.map fun e => { e with due := e.minute == 600 } }
    ec := { crowded.ec with expiring := true } }

theorem witness_TimeSet : taking (timed 599 0) ∧ taking small
    ∧ 1439 < 256 * (5 : Byte).toNat + (160 : Byte).toNat ∧ 256 * (5 : Byte).toNat + (159 : Byte).toNat ≤ 1439
    ∧ small.cs.clock.set = false ∧ (timed 599 0).cs.clock.set = true
    ∧ (timed 599 0).cs.clock.minute < 256 * (5 : Byte).toNat + (159 : Byte).toNat
    ∧ 256 * (2 : Byte).toNat + (87 : Byte).toNat ≤ (timed 599 0).cs.clock.minute
    ∧ (taking crowdedExpiring ∧ crowdedExpiring.cs.clock.set = true ∧ crowdedExpiring.ec.expiring = true
      ∧ crowdedExpiring.cs.clock.minute < 256 * (2 : Byte).toNat + (88 : Byte).toNat
      ∧ (servePass (fun e => e.due) crowdedExpiring.cs).urgent = true) := by decide +kernel

/-- R56, R58, log 5, log 26: at SET TIME 600 one DUE entry moves and starts a turn, which keeps the expiry that waits;
the other finds the queue full again and sets nothing. -/
theorem test_set_time_choices : (let t := after (.setTime (frameOf (be16 600))) crowdedExpiring;
    t.ec.turn = .draining ∧ t.ec.wanted = true ∧ t.ec.expiring = false ∧ t.ep.flags = crowdedExpiring.ep.flags
      ∧ t.cs.schedule.map (fun e => (e.number, e.due)) = [(5, true), (1, false)]) := by decide +kernel

theorem witness_SecondsCounted : (timed 5 58).resetHeld = false ∧ (timed 5 58).cs.clock.set = true
    ∧ (timed 5 58).cs.clock.seconds < 59
    ∧ (withEntries [entry 1 findQuery (.ready 1) (some emptyAnswer)] small).qt.entries[0]? =
      some (entry 1 findQuery (.ready 1) (some emptyAnswer)) := by decide +kernel

theorem witness_MinuteServed : crowded.resetHeld = false ∧ crowded.cs.clock.set = true
    ∧ crowded.cs.clock.seconds = 59 ∧ crowded.cs.clock.minute ≤ 1439 ∧ (timed 1439 59).cs.clock.minute = 1439
    ∧ crowded.service ≠ .loading ∧ crowded.ec.turn = .steady ∧ crowded.eu.unit ≠ .building
    ∧ (evacuating .building).eu.unit = .building ∧ (turning .draining TurnWork.initial).ec.turn ≠ .steady
    ∧ (servePass (fun e => !e.due && e.minute == 600) crowded.cs).urgent = true
    ∧ crowded.service = .service ∧ (after .minuteEvent (timed 5 59)).ec.turn = .steady
    ∧ (after .minuteEvent crowded).ec.turn ≠ .steady := by decide +kernel

theorem witness_ExpiriesTaken :
    (let s : State := { small with ec := { small.ec with expiring := true } };
      s.resetHeld = false ∧ s.ec.expiring = true ∧ s.service ≠ .loading ∧ s.ec.turn = .steady ∧ s.eu.unit ≠ .building
        ∧ ({ s.eu with unit := .building }).unit = .building ∧ ({ s.ec with turn := .draining }).turn ≠ .steady)
    ∧ tableGet (loaded 59).lm.entries 5 = some (freshEntry 59) ∧ (loaded 59).resetHeld = false
    ∧ staleNow (loaded 59).config.staleLimit (freshEntry 59) ∧ ¬staleNow (loaded 58).config.staleLimit (freshEntry 58)
    ∧ (let e := entry 1 findQuery (.ready 0) (some emptyAnswer)
      findEntry (withEntries [e] small).qt 0 1 = some e ∧ e.state = .ready 0) := by decide +kernel

theorem witness_ReadingsTaken : tableGet small.lm.entries 4095 = none ∧ tableGet small.lm.entries 5 = some newLoadEntry
    ∧ taking small ∧ 3 * [((15 : Byte), (255 : Byte), (1 : Byte))].length ≤ 250
    ∧ 4095 < 256 * (16 : Byte).toNat + (0 : Byte).toNat ∧ 256 * (15 : Byte).toNat + (255 : Byte).toNat ≤ 4095 := by
  decide +kernel

theorem witness_ThresholdsAndLoadsRead : taking small ∧ 4095 < 256 * (16 : Byte).toNat + (0 : Byte).toNat
    ∧ (tableGet small.lm.entries (256 * (15 : Byte).toNat + (255 : Byte).toNat) = none ∧ (1 : Byte) ≠ 0)
    ∧ tableGet small.lm.entries (256 * (0 : Byte).toNat + (5 : Byte).toNat) = some newLoadEntry
    ∧ 4096 < 256 * (15 : Byte).toNat + (255 : Byte).toNat + (2 : Byte).toNat
    ∧ 256 * (15 : Byte).toNat + (226 : Byte).toNat + (30 : Byte).toNat ≤ 4096 := by decide +kernel

theorem witness_RecordsRead : taking small
    ∧ 1023 < 256 * (4 : Byte).toNat + (0 : Byte).toNat
    ∧ tableGet small.ds.listings (256 * (3 : Byte).toNat + (255 : Byte).toNat) = none
    ∧ (tableGet small.ds.listings (256 * (0 : Byte).toNat + (7 : Byte).toNat)).isSome = true
    ∧ 2047 < 256 * (8 : Byte).toNat + (0 : Byte).toNat
    ∧ tableGet small.wg.nodes (256 * (7 : Byte).toNat + (255 : Byte).toNat) = none
    ∧ (tableGet small.wg.nodes (256 * (0 : Byte).toNat + (30 : Byte).toNat)).isSome = true
    ∧ 4095 < 256 * (16 : Byte).toNat + (0 : Byte).toNat
    ∧ tableGet small.wg.segments (256 * (15 : Byte).toNat + (255 : Byte).toNat) = none
    ∧ (tableGet small.wg.segments (256 * (0 : Byte).toNat + (6 : Byte).toNat)).isSome = true
    ∧ small.config.labels.length = 8 ∧ 5 < (6 : Byte).toNat ∧ 15 < (16 : Byte).toNat := by decide +kernel

theorem witness_CountsReadAndCleared : taking small
    ∧ 1024 < 256 * (3 : Byte).toNat + (255 : Byte).toNat + (2 : Byte).toNat
    ∧ (1 ≤ 256 * (3 : Byte).toNat + (196 : Byte).toNat ∧ (60 : Byte) ≠ 0 ∧ (60 : Byte).toNat ≤ 60
      ∧ 256 * (3 : Byte).toNat + (196 : Byte).toNat + (60 : Byte).toNat ≤ 1024) := by decide +kernel

theorem witness_StationsControlled : taking small ∧ (stationAt small 0).state ≠ .disabled
    ∧ (stationAt (station fun st => { st with state := .disabled }) 0).state = .disabled
    ∧ inService (stationAt (station fun st => { st with state := .dormant }) 0) = true
    ∧ 4096 ≤ 256 * (16 : Byte).toNat + (0 : Byte).toNat
    ∧ 256 * (15 : Byte).toNat + (255 : Byte).toNat < 4096 := by decide +kernel

theorem witness_TrunkReset : taking carrying ∧ 5 < (6 : Byte).toNat
    ∧ (trunkOf 15 = 0 ∧ (stationAt carrying 15).state ≠ .disabled) ∧ trunkOf 16 ≠ 0
    ∧ (stationAt (station fun st => { st with state := .disabled }) 0).state = .disabled := by decide +kernel

/-- The bounds of the query table speak of the table alone. -/
theorem tableInv_qt {s t : State} (hs : TableInv s) (h : t.qt = s.qt) : TableInv t :=
  ⟨h ▸ hs.size, h ▸ hs.each, h ▸ hs.distinct⟩

theorem tableInv_small : TableInv small := ⟨by decide, by decide +kernel, by decide⟩

theorem witness_EvacuationEntered : taking (evacuating .off) ∧ (evacuating .off).eu.latch = true
    ∧ (taking small ∧ TableInv small ∧ small.eu.latch = false ∧ small.eu.unit = .off ∧ small.service = .service)
    ∧ taking State.reset ∧ State.reset.service = .loading
    ∧ ({ small with service := .starting }).service = .starting
    ∧ (taking working ∧ TableInv working ∧ working.eu.latch = false ∧ working.eu.unit = .off
      ∧ ∃ e ∈ working.qt.entries, isRoute e = true ∧ e.state = .working) :=
  ⟨by decide +kernel, rfl, ⟨by decide +kernel, tableInv_small, rfl, rfl, rfl⟩, by decide +kernel, rfl, rfl,
    by decide +kernel, tableInv_working, rfl, rfl, _, List.mem_singleton.2 rfl, rfl, rfl⟩

theorem witness_EvacuationCleared :
    (taking { small with eu := { small.eu with asserted := true } })
    ∧ (taking small ∧ small.eu.asserted = false ∧ small.eu.latch = false)
    ∧ (taking (evacuating .building) ∧ (evacuating .building).eu.latch = true
      ∧ (evacuating .building).eu.asserted = false ∧ (evacuating .building).ec.wanted = false)
    ∧ ({ (evacuating .building) with ec := { small.ec with wanted := true } }).ec.wanted = true
    ∧ (evacuating .building).service ≠ .loading ∧ ({ (evacuating .off) with service := .loading }).service = .loading
    ∧ (oldestQueued isRoute (withEntries [entry 1 routeQuery .queued none, entry 2 findQuery .queued none]
        (evacuating .active)).qt = some (entry 1 routeQuery .queued none)
      ∧ oldestQueued (fun e => !isRoute e) (withEntries [entry 1 routeQuery .queued none,
        entry 2 findQuery .queued none] (evacuating .active)).qt = some (entry 2 findQuery .queued none)
      ∧ (evacuating .active).re.work = none ∧ (evacuating .active).fe.work = none
      ∧ (evacuating .active).ec.turn = .steady) := by
  decide +kernel

theorem tableInv_cleared : TableInv (withEntries [entry 1 routeQuery .queued none, entry 2 findQuery .queued none]
    (evacuating .active)) := ⟨by decide +kernel, by decide +kernel, by decide +kernel⟩

theorem witness_AttentionServed : taking small ∧ 64 ≤ (64 : Byte).toNat := by decide +kernel

theorem witness_ServiceCommandsTaken : taking State.reset ∧ State.reset.service = .loading
    ∧ State.reset.ec.turn = .steady ∧ State.reset.eu.unit ≠ .building ∧ taking small ∧ small.service ≠ .loading
    ∧ (evacuating .building).eu.unit = .building
    ∧ ((stationAt carrying 0).state ≠ .disabled ∧ (stationAt carrying 0).state ≠ .absent)
    ∧ ∀ a : Addr, (stationAt small a).state = .disabled ∨ (stationAt small a).state = .absent := by decide +kernel

theorem witness_LineFiltered : small.resetHeld = false ∧ small.eu.differing < 2
    ∧ (let s : State := { small with eu := { small.eu with differing := 2 } }
      s.eu.asserted = false ∧ s.eu.differing = 2)
    ∧ (let s : State := { small with eu := { small.eu with asserted := true, differing := 2 } }
      s.eu.asserted = true ∧ s.eu.differing = 2) := by decide +kernel

theorem witness_DrainingEnds : (turning .draining TurnWork.initial).resetHeld = false
    ∧ (turning .draining TurnWork.initial).ec.turn = .draining ∧ (turning .draining TurnWork.initial).re.work = none
    ∧ (turning .draining TurnWork.initial).fe.work = none
    ∧ (turning .draining TurnWork.initial).eu.unit ≠ .building
    ∧ (turning .draining TurnWork.initial).ec.rollover = false
    ∧ ({ small.ec with turn := .draining, rollover := true }).rollover = true := by decide +kernel

theorem witness_StagedEditTaken :
    let s : State := { turning .applying { TurnWork.initial with remaining := 1 } with
      cs := { small.cs with queue := [{ edit := .retireListing 7, seq := 65535 }] } }
    s.resetHeld = false ∧ s.ec.turn = .applying ∧ 0 < s.ec.work.remaining
      ∧ s.cs.queue = { edit := .retireListing 7, seq := 65535 } :: [] ∧ editTest (.retireListing 7) s = none
      ∧ editTest (.retireListing 9) s = some .noSuchListing := by decide +kernel

/-- A node entry that is free, one that is a KIOSK and one of another kind. -/
theorem witness_EditsTestedInOrder : tableGet small.wg.nodes 2047 = none
    ∧ tableGet small.wg.nodes 10 = some (node 1 .kiosk 0 [5])
    ∧ tableGet small.wg.nodes 20 = some (node 1 .entrance 300 [5, 6]) := by decide +kernel

theorem witness_WeightsSampledForwardsRepaired :
    ((turning .applying TurnWork.initial).resetHeld = false ∧ (turning .applying TurnWork.initial).ec.turn = .applying
      ∧ (turning .applying TurnWork.initial).ec.work.remaining = 0)
    ∧ ((turning .validating TurnWork.initial).ec.turn = .validating
      ∧ (turning .validating TurnWork.initial).ec.work.validation = .repair
      ∧ tableGet (turning .validating TurnWork.initial).ds.listings 8 = some (shop [12] .relocated (some 7) 0)
      ∧ tableGet (turning .validating TurnWork.initial).ds.listings 9 = none) := by decide +kernel

theorem witness_ReachIsReachability :
    let s := turning .validating { TurnWork.initial with validation := .floods }
    s.resetHeld = false ∧ s.ec.turn = .validating ∧ s.ec.work.validation = .floods
      ∧ (∀ a : Addr, s.wg.homes[a] = none ∨ s.wg.homes[a] = some 10)
      ∧ (∀ x ∈ s.wg.segments, x.2.endA < 2048 ∧ x.2.endB < 2048) ∧ TableSorted s.wg.segments
      ∧ (tableGet s.ds.listings 7).isSome = true ∧ tableGet s.ds.listings 9 = none := by decide +kernel

/-- A turn about to complete, with a ROUTE and a FIND that wait for it. -/
def completing (latch wanted : Bool) : State :=
  let s := turning .validating { TurnWork.initial with validation := .completion }
  withEntries [entry 1 routeQuery .queued none, entry 2 findQuery .queued none]
    { s with eu := { s.eu with latch := latch }, ec := { s.ec with wanted := wanted } }

theorem witness_TurnCompletes : (∀ latch wanted, let s := completing latch wanted
      s.resetHeld = false ∧ s.ec.turn = .validating ∧ s.ec.work.validation = .completion ∧ s.eu.latch = latch
        ∧ s.ec.wanted = wanted ∧ s.re.work = none ∧ s.fe.work = none
        ∧ oldestWaiting true s = some (entry 1 routeQuery .queued none)
        ∧ oldestWaiting false s = some (entry 2 findQuery .queued none) ∧ TableSorted s.wg.nodes)
    ∧ ∀ latch wanted, TableInv (completing latch wanted) :=
  ⟨by decide +kernel, fun _ _ => tableInv_qt tableInv_cleared rfl⟩

/-- R70, R110: both arbiters grant when a turn completes; while the latch is set the find arbiter alone does. -/
theorem test_turn_grants :
    ((after .turnComplete (completing false false)).qt.entries.map fun e => e.state) = [.working, .working]
    ∧ ((after .turnComplete (completing true true)).qt.entries.map fun e => e.state) = [.queued, .working]
    ∧ ((after .turnComplete (completing false true)).qt.entries.map fun e => e.state) = [.queued, .queued] := by
  decide +kernel

/-- Among the stations of the trunk is one that is RESETTING at countdown 1, on its third attempt. -/
theorem witness_FrameBegins : small.resetHeld = false ∧ (trunkAt small 5).exchange = none ∧ trunkOf 95 = 5
    ∧ trunkOf 0 ≠ 5
    ∧ (let s := station fun st => { st with state := .resetting, countdown := 1, attempts := 2, spacing := 1 }
      s.resetHeld = false ∧ (trunkAt s 0).exchange = none ∧ trunkOf 0 = 0 ∧ (stationAt s 0).state = .resetting
        ∧ (stationAt s 0).countdown = 1) := by decide +kernel

/-- R168, log 7: the frame start brings the countdown to 0, and the failed attempt is the step after it. -/
theorem test_reset_attempt_fails :
    let s := after (.frameStart 0) (station fun st => { st with state := .resetting, countdown := 1, attempts := 2 })
    (stationAt s 0).countdown = 0 ∧ (stationAt s 0).state = .resetting
      ∧ (stationAt (after (.resetCountdownExpiry 0) s) 0).state = .faulted := by decide +kernel

theorem witness_NoticeSent :
    let s := station fun st => { st with state := .enabled, pendingMask := 1 }
    s.resetHeld = false
      ∧ firstAfter (trunkAt s 0).noticePtr (fun m =>
        let st := stationAt s (addrOf 0 m)
        decide (st.state = .enabled ∧ st.pendingMask ≠ 0 ∧ (st.spacing = 0 ∨ st.raisedSince = true)
          ∧ m ∉ (trunkAt s 0).noticed)) = some 0
      ∧ (trunkAt s 0).part = .notices ∧ (trunkAt s 0).exchange = none
      ∧ (trunkAt s 0).elapsed + 80 * bitMicros (trunkAt s 0).settings.bitRate ≤ noticeEnd (trunkAt s 0).settings := by
  decide +kernel

/-- The station of `carrying` before its POLL. -/
def waiting : State := updateTrunk 0 (fun k => { k with exchange := none }) carrying

theorem witness_PollSent : waiting.resetHeld = false ∧ QueuesInv waiting
    ∧ firstAfter (trunkAt waiting 0).pollPtr (fun m =>
      let st := stationAt waiting (addrOf 0 m)
      decide (st.state = .enabled ∨ st.state = .resetting ∨ (st.state = .dormant ∧ (trunkAt waiting 0).frame % 16 = 0)))
        = some 0
    ∧ pollFits waiting 0 0 = true :=
  ⟨rfl, queuesInv_of (by decide +kernel) (by decide +kernel), by decide +kernel, by decide +kernel⟩

theorem witness_ManagementExchanges :
    (let s := station fun st => { st with state := .attached };
      s.resetHeld = false
        ∧ firstAfter (trunkAt s 0).resetPtr (fun m => decide ((stationAt s (addrOf 0 m)).state = .attached)) = some 0
        ∧ managementTurn s 0 = true ∧ fitsFrame (trunkAt s 0) 60 = true)
    ∧ ((∀ m, (stationAt small (addrOf 5 m)).state ≠ .attached)
      ∧ firstAfter (trunkAt small 5).probePtr (fun m => decide ((stationAt small (addrOf 5 m)).state = .absent
        ∨ (stationAt small (addrOf 5 m)).state = .faulted)) = some 0
      ∧ managementTurn small 5 = true ∧ fitsFrame (trunkAt small 5) probeExchangeBits = true) := by decide +kernel

theorem witness_StationsComeIntoService :
    (let s := updateTrunk 0 (fun k => { k with exchange := some { station := 0, probe := true, void := false } }) small;
      s.resetHeld = false ∧ replyFits .ready = true
        ∧ (trunkAt s 0).exchange = some { station := 0, probe := true, void := false } ∧ trunkOf 0 = 0
        ∧ (stationAt s 0).state = .absent)
    ∧ (let s := polled .resetting fun st => { st with countdown := 1 }
      (trunkAt s 0).exchange = some { station := 0, probe := false, void := false }
        ∧ (stationAt s 0).state = .resetting ∧ 0 < (stationAt s 0).countdown)
    ∧ inService (stationAt (polled .dormant id) 0) = true
    ∧ (let s := polled .resetting fun st => { st with attempts := 2 }
      (stationAt s 0).state = .resetting ∧ (stationAt s 0).countdown = 0) := by decide +kernel

theorem witness_RepliesAcknowledgeOrMiss :
    (carrying.resetHeld = false ∧ (trunkAt carrying 0).exchange = some { station := 0, probe := false, void := false }
      ∧ trunkOf 0 = 0 ∧ inService (stationAt carrying 0) = true ∧ goodReply 0 [0xC3] = none
      ∧ (stationAt carrying 0).misses + 1 < (trunkAt carrying 0).settings.faultLimit)
    ∧ (trunkAt (polled .enabled fun st => { st with misses := 5 }) 0).settings.faultLimit
      ≤ (stationAt (polled .enabled fun st => { st with misses := 5 }) 0).misses + 1
    ∧ (stationAt (polled .resetting id) 0).state = .resetting
    ∧ (RepliesOn 0 (.emptyReply 0 64) ∧ RepliesOn 0 (.badReply 0 65 [0xC3]))
    ∧ (trunkAt (updateTrunk 0 (fun k => { k with exchange := some { station := 0, probe := true, void := true } }) small)
      0).exchange = some { station := 0, probe := true, void := true } :=
  ⟨by decide +kernel, by decide +kernel, by decide +kernel, ⟨.empty 64, .bad 65 [0xC3]⟩, by decide +kernel⟩

theorem witness_RepliesRoundTrip : replyFits (.request 15 [7, 15, 255]) = true := by decide

theorem witness_ConfigCarriedAndApplied : configOk Configuration.default = true := by decide

theorem queuesInv_polled (state : StationState) : QueuesInv (polled state id) :=
  queuesInv_of (by cases state <;> decide +kernel) (by cases state <;> decide +kernel)

theorem witness_RequestsAdmittedOrRefused :
    (answering 0 64 { station := 0, probe := false, void := false } (polled .enabled id)
      ∧ QueuesInv (polled .enabled id) ∧ (stationAt (polled .enabled id) 0).state = .enabled)
    ∧ (paramsFit .find [0, 0, 0, 1, 12] = true ∧ paramsFit .browse [0, 63, 0] = true
      ∧ paramsFit .route [0, 0, 7, 0, 255, 255] = true)
    ∧ (acknowledge (stationAt (polled .enabled id) 0)).queue.length < 4
    ∧ 4 ≤ (acknowledge (stationAt (polled .enabled fun st =>
        appendSlot none (appendSlot none (appendSlot none (appendSlot none st)))) 0)).queue.length
    ∧ routeQueryOf [0, 0, 7, 0, 255, 255] = some routeQuery
    ∧ QueryCarried .route [0, 0, 7, 0, 255, 255] routeQuery ∧ TableInv (polled .enabled id)
    ∧ (inService (stationAt (polled .dormant id) 0) = true ∧ changeFlag .enabled (stationAt (polled .dormant id) 0) = 2)
    ∧ (∀ reason, ¬firstRefusal (polled .enabled id) 0 2 (some routeQuery) reason)
    ∧ firstRefusal (polled .enabled id) 0 2 none .badRequest := by
  refine ⟨⟨by decide +kernel, queuesInv_polled _, by decide +kernel⟩, by decide, by decide +kernel, by decide +kernel,
    by decide +kernel, ⟨rfl, by decide, .inl ⟨rfl, by decide⟩, by decide, by simp⟩, tableInv_qt tableInv_small rfl,
    by decide +kernel, fun reason => ?_, by simp [firstRefusal]; rfl⟩
  have h1 : tableGet (polled .enabled id).ds.listings 7 = some (shop [11, 12] .opened none 9) := by decide +kernel
  have h2 : (polled .enabled id).wg.homes[(0 : Addr)] = some 10 := by decide +kernel
  have h3 : (polled .enabled id).service = .service := by decide +kernel
  have h4 : liveCount (polled .enabled id).qt 0 = 0 := by decide +kernel
  have h5 : (polled .enabled id).qt.entries = [] := by decide +kernel
  cases reason <;> simp [firstRefusal, routeQuery, h1, h2, h3, h4, h5]

theorem witness_AnswersPagedAndCancelled :
    (answering 0 0 { station := 0, probe := false, void := false } (polled .enabled id)
      ∧ QueuesInv (polled .enabled id) ∧ (stationAt (polled .enabled id) 0).state = .enabled
      ∧ (polled .enabled id).service = .service
      ∧ (acknowledge (stationAt (polled .enabled id) 0)).queue.length < 4)
    ∧ findEntry (polled .enabled id).qt 0 1 = none
    ∧ (let e := entry 1 routeQuery .working none
      findEntry (withEntries [e] (polled .enabled id)).qt 0 1 = some e ∧ e.state = .working)
    ∧ (let e := entry 1 findQuery (.ready 4) (some pageAnswer)
      findEntry (withEntries [e] (polled .enabled id)).qt 0 1 = some e ∧ e.answer = some pageAnswer
        ∧ pageCountOf pageAnswer < (2 : Byte).toNat ∧ (1 : Byte).toNat ≤ pageCountOf pageAnswer ∧ (1 : Byte) ≠ 0)
    ∧ (let e := entry 1 routeQuery .queued none
      findEntry (withEntries [e] carrying).qt 0 1 = some e ∧ e.slot < (acknowledge (stationAt carrying 0)).nextPlace)
    ∧ (let s := polled .enabled fun st => appendSlot none (appendSlot none (appendSlot none (appendSlot none st)))
      4 ≤ (awake (stationAt s 0)).queue.length)
    ∧ (awake (stationAt (polled .dormant id) 0)).queue.length < 4
    ∧ ({ polled .enabled id with service := .starting }).service ≠ .service :=
  ⟨⟨by decide +kernel, queuesInv_polled _, by decide +kernel, by decide +kernel, by decide +kernel⟩, by decide +kernel⟩

theorem witness_ReadyEntryReleased :
    answering 0 64 { station := 0, probe := false, void := false } (polled .enabled id)
    ∧ (stationAt (polled .enabled id) 0).state = .enabled
    ∧ (∀ e ∈ (polled .enabled id).qt.entries, False)
    ∧ (let e := entry 1 findQuery (.ready 0) (some pageAnswer)
      findEntry (withEntries [e] (polled .enabled id)).qt 0 1 = some e
        ∧ ∀ y ∈ (acknowledge (stationAt (polled .enabled id) 0)).queue, y.place = e.slot → y.content ≠ none) := by
  decide +kernel

theorem witness_SeenSleepWake :
    answering 5 64 { station := 95, probe := false, void := false }
      (updateTrunk 5 (fun k => { k with exchange := some { station := 95, probe := false, void := false } })
        (updateStation 95 (fun st => { st with state := .dormant }) small))
    ∧ inService (stationAt (updateStation 95 (fun st => { st with state := .dormant }) small) 95) = true := by
  decide +kernel

theorem witness_CostsTimesAndTurns : configOk Configuration.default = true ∧ 0 < paceOf Configuration.default .standard
    ∧ (let g := { walk 10 20 4095 with weight := 64 }
      1 ≤ g.length ∧ g.length ≤ 4095 ∧ 16 ≤ g.weight ∧ g.weight ≤ 64 ∧ floorOf small.wg g.endA ≤ 7
        ∧ floorOf small.wg g.endB ≤ 7)
    ∧ (∀ m ∈ [5, 6], tableGet small.wg.segments m ≠ none)
    ∧ turnClass 0 0 0 0 1 0 = .straight ∧ turnClass 0 0 8 0 16 3 = .straight ∧ turnClass 0 0 8 0 0 3 = .back
    ∧ turnClass 0 0 8 0 15 3 = .left ∧ turnClass 0 0 8 0 15 (-3) = .right := by decide +kernel

/-- Listings that forward one to the next. -/
def chain : Directory :=
  { listings := [(1, shop [11] .relocated (some 2) 0), (2, shop [11] .relocated (some 3) 0),
      (3, shop [11] .relocated (some 4) 0), (4, shop [11] .relocated (some 5) 0)]
    nameIndex := [1, 2, 3, 4] }

/-- A search with a full frontier: node n at cost n, for each n below 512. -/
def fullSearch : Search :=
  { records := (List.range 512).map fun n => (n, { cost := n, via := none, settled := false })
    frontier := (List.range 512).map fun n => (n, n)
    approximate := false }

theorem searchInv_fullSearch : SearchInv fullSearch := by
  have sorted : TableSorted fullSearch.records := by
    simp only [fullSearch, TableSorted, List.pairwise_map]; exact List.pairwise_lt_range
  refine ⟨sorted, by simp [fullSearch], ?_, ?_, fun e he => ?_⟩
  · simp only [fullSearch, List.pairwise_map]
    exact List.pairwise_lt_range.imp fun h => (Laws.frontierBefore_iff _ _).2 (.inl h)
  · simp only [fullSearch, List.pairwise_map]
    exact List.pairwise_lt_range.imp fun h => Nat.ne_of_lt h
  · simp only [fullSearch, List.mem_map] at he
    obtain ⟨n, hn, rfl⟩ := he
    have : tableGet fullSearch.records n = some { cost := n, via := none, settled := false } :=
      Laws.tableGet_of_mem sorted (by simp only [fullSearch, List.mem_map]; exact ⟨n, hn, rfl⟩)
    simp [recordOf, this]

theorem searchInv_begun (n : Nat) : SearchInv (beginSearch n) :=
  ⟨by simp [beginSearch], by simp [beginSearch], by simp [beginSearch], by simp [beginSearch],
    by simp [beginSearch, recordOf, tableGet]⟩

theorem witness_RouteEngineSteps :
    (working.resetHeld = false ∧ working.re.work = some (routeWork .searching [20] none) ∧ TableInv working
      ∧ working.re.search.frontier = (0, 10) :: [] ∧ haltCause working 0 1 = none ∧ 10 ∉ [20] ∧ 20 ∈ [20]
      ∧ ({ routeWork .searching [20] none with settles := 2048 }).settles
        = ({ routeWork .searching [20] none with settles := 2048 }).limit)
    ∧ (routing .searching Search.empty .working).re.search.frontier = []
    ∧ (let s := routing .walking Search.empty .working
      s.re.work = some (routeWork .walking [20] none) ∧ (recordOf s.eu.tree 10).cost ≠ 0
        ∧ (recordOf s.eu.tree 10).via = none
        ∧ (recordOf { Search.empty with records := [(10, { cost := 0, via := none, settled := true })] } 10).cost = 0
        ∧ (recordOf { Search.empty with records := [(10, { cost := 9, via := some 5, settled := true })] } 10).via
          = some 5
        ∧ tableGet s.wg.segments 5 = some (walk 10 20 300))
    ∧ (let s := routing .forming Search.empty .working
      s.re.work = some (routeWork .forming [20] (some .noRoute))
        ∧ findEntry s.qt 0 1 = some (entry 1 routeQuery .working none) ∧ s.config.frozen = false
        ∧ (routeWork .forming [20] (some .found)).finalListing = some 7)
    ∧ (let s := withEntries [entry 1 routeQuery .queued none] small
      s.re.work = none ∧ s.ec.turn = .steady ∧ s.eu.latch = false
        ∧ oldestQueued isRoute s.qt = some (entry 1 routeQuery .queued none))
    ∧ (small.wg.homes[(0 : Addr)] = some 10 ∧ small.wg.homes[(95 : Addr)] = none) :=
  ⟨⟨rfl, rfl, tableInv_working, rfl, by decide, by decide, by decide, rfl⟩, rfl, by decide +kernel, by decide +kernel,
    by decide +kernel, by decide +kernel⟩

theorem witness_RouteEngineSteps_targets : Forwarded small.ds 1 8 7 ∧ Forwarded chain 3 1 4 ∧ Forwarded small.ds 0 9 9
    ∧ tableGet small.ds.listings 9 = none ∧ tableGet chain.listings 4 = some (shop [11] .relocated (some 5) 0) :=
  ⟨.hop 0 8 7 7 _ rfl rfl rfl (.here 7), .hop 2 1 2 4 _ rfl rfl rfl (.hop 1 2 3 4 _ rfl rfl rfl
    (.hop 0 3 4 4 _ rfl rfl rfl (.here 4))), .here 9, rfl, rfl⟩

/-- Each of the five ways of a relaxation to a node, and each way a segment takes. -/
theorem witness_RouteEngineSteps_relax : SearchInv (beginSearch 10)
    ∧ permitted .standard (walk 10 20 300) 10 (otherEnd (walk 10 20 300) 10) = true
    ∧ permitted .standard { walk 10 20 300 with state := .closed } 10 20 = false
    ∧ tableGet small.wg.segments 4095 = none
    ∧ (∃ e ∈ (beginSearch 10).frontier, e.2 = 10) ∧ (∀ e ∈ (beginSearch 10).frontier, e.2 ≠ 2047)
    ∧ SearchInv fullSearch ∧ 512 ≤ fullSearch.frontier.length ∧ (∀ e ∈ fullSearch.frontier, e.2 ≠ 2047)
    ∧ fullSearch.frontier = ((List.range 511).map fun n => (n, n)) ++ [(511, 511)] :=
  ⟨searchInv_begun 10, by decide, by decide, by decide +kernel, by decide, by decide, searchInv_fullSearch,
    by simp [fullSearch], by simp [fullSearch]; omega, by
      simp only [fullSearch]; rw [show (512 : Nat) = 511 + 1 from rfl, List.range_succ, List.map_append]; rfl⟩

theorem witness_RouteEngineSteps_path :
    PathTaken { small with re := { work := none, search := { Search.empty with records :=
        [(10, { cost := 0, via := none, settled := true }), (20, { cost := 300, via := some 5, settled := true })] } } }
      { routeWork .forming [20] (some .found) with reached := some 20 } 10 [5] :=
  ⟨by decide, 20, rfl, .back 20 5 (walk 10 20 300) [] 10 rfl rfl (.origin 10 rfl)⟩

theorem witness_FindEngineSteps :
    (∀ forming position state, TableInv (finding forming position state))
    ∧ ((finding false 2 .working).resetHeld = false ∧ (finding false 2 .working).fe.work = some (findWork false 2)
      ∧ (finding false 2 .working).ds.nameIndex.length ≤ 2)
    ∧ ((finding false 1 .working).ds.nameIndex[1]? = some 8 ∧ haltCause (finding false 1 .working) 0 1 = none
      ∧ (tableGet (finding false 1 .working).ds.listings 8).isSome = true)
    ∧ ((finding true 2 .working).fe.work = some (findWork true 2)
      ∧ findEntry (finding true 2 .working).qt 0 1 = some (entry 1 findQuery .working none))
    ∧ (let s := withEntries [entry 1 findQuery .queued none] small
      s.fe.work = none ∧ s.ec.turn = .steady
        ∧ oldestQueued (fun f => !isRoute f) s.qt = some (entry 1 findQuery .queued none))
    ∧ (let before := fun a b : Nat × Nat => decide (b.2 < a.2)
        || (a.2 == b.2 && directoryBefore (nameOf small.ds a.1, a.1) (nameOf small.ds b.1, b.1))
      [(7, 9), (8, 0)].Pairwise (fun a b => before a b = true) ∧ ∀ f ∈ [(7, 9), (8, 0)], f.1 ≠ (3, 5).1)
    ∧ ((tableGet small.ds.listings 7).isSome = true
      ∧ ({ findWork true 2 with results := [(7, 9)] }).results[0]? = some (7, 9)) :=
  ⟨fun _ _ _ => tableInv_single rfl, by decide +kernel⟩

theorem witness_EnginesHalt :
    (∀ cause, let s := routing .searching (beginSearch 10) (.halting cause)
      s.resetHeld = false ∧ s.re.work = some (routeWork .searching [20] none)
        ∧ atRouteBoundary (routeWork .searching [20] none) s = true
        ∧ findEntry s.qt 0 1 = some (entry 1 routeQuery (.halting cause) none))
    ∧ (∀ cause, let s := routing .forming (beginSearch 10) (.halting cause)
      s.re.work = some (routeWork .forming [20] (some .noRoute))
        ∧ atRouteBoundary (routeWork .forming [20] (some .noRoute)) s = true
        ∧ findEntry s.qt 0 1 = some (entry 1 routeQuery (.halting cause) none))
    ∧ (∀ cause forming, let s := finding forming (if forming then 2 else 1) (.halting cause)
      let w := findWork forming (if forming then 2 else 1)
      s.resetHeld = false ∧ s.fe.work = some w ∧ atFindBoundary w s = true
        ∧ findEntry s.qt 0 1 = some (entry 1 findQuery (.halting cause) none))
    ∧ (∀ phase cause, TableInv (routing phase (beginSearch 10) (.halting cause)))
    ∧ ∀ forming position cause, TableInv (finding forming position (.halting cause)) := by
  refine ⟨?_, ?_, ?_, fun _ _ => tableInv_single rfl, fun _ _ _ => tableInv_single rfl⟩ <;>
    intro cause <;> cases cause <;> decide +kernel

/-- One usable exit more than the frontier holds. -/
def manyExits : List (Nat × Node) := (List.range 513).map fun n => (n, node 0 (.exit .usable) 0 [])

theorem manyExits_sorted : TableSorted manyExits := by
  simpa [manyExits, TableSorted, List.pairwise_map] using List.pairwise_lt_range

theorem witness_ExitTreeBuilt :
    ((evacuating .off).resetHeld = false ∧ (evacuating .off).service = .service ∧ (evacuating .off).eu.latch = true
      ∧ (evacuating .off).eu.unit = .off ∧ (evacuating .off).ec.turn = .steady ∧ (evacuating .off).re.work = none
      ∧ TableSorted (evacuating .off).wg.nodes
      ∧ ((evacuating .off).wg.nodes.filter fun p => p.2.kind == .exit .usable).length ≤ 512)
    ∧ (manyExits.filter fun p => p.2.kind == .exit .usable).length = 513
    ∧ ((evacuating .building).eu.unit = .building ∧ (evacuating .building).eu.tree.frontier = []
      ∧ (evacuating .building).ec.wanted = false)
    ∧ (beginTree small.wg).frontier = (0, 30) :: []
    ∧ (tableGet small.wg.segments 6 = some (walk 20 30 100)
      ∧ permitted .evacuation (walk 20 30 100) (otherEnd (walk 20 30 100) 30) 30 = true
      ∧ permitted .evacuation { walk 20 30 100 with direction := .bToA } 20 30 = false)
    ∧ (({ small.ec with wanted := true }).wanted = true)
    ∧ oldestQueued isRoute (withEntries [entry 1 routeQuery .queued none] (evacuating .building)).qt ≠ none
    ∧ small.eu.latch = false := by
  decide +kernel

theorem witness_ExitTreeBuilt_grants : TableInv (withEntries
    [entry 1 routeQuery .queued none, entry 2 findQuery .queued none] (evacuating .building)) :=
  tableInv_qt tableInv_cleared rfl

end Sys2Proof.Tests
end

section
/-! The opening hours of a listing (R9, R10): one equivalence for each way a listing's hours field can stand, and from
them when a listing is open now. -/

namespace Sys2Proof.Proofs
open Sys2Proof.Machine

/-! ### The minutes that hours hold (R9) -/

/-- Hours of one day. -/
theorem hoursHold_iff_of_opens_lt {h : Hours} (day : h.opens < h.closes) (m : Nat) :
    hoursHold h m = true ↔ h.opens ≤ m ∧ m < h.closes := by
  simp [hoursHold, day]

/-- Hours over midnight: up to the end of the day and from minute 0 on. -/
theorem hoursHold_iff_of_closes_lt {h : Hours} (night : h.closes < h.opens) (m : Nat) :
    hoursHold h m = true ↔ h.opens ≤ m ∨ m < h.closes := by
  simp [hoursHold, night.not_gt]

/-- R9 shuts out equal hours, for which the model's test has no meaning of its own. -/
theorem hoursHold_iff {h : Hours} (distinct : h.opens ≠ h.closes) (m : Nat) :
    hoursHold h m = true ↔
      (h.opens < h.closes ∧ h.opens ≤ m ∧ m < h.closes) ∨ (h.closes < h.opens ∧ (h.opens ≤ m ∨ m < h.closes)) := by
  rcases Nat.lt_or_gt_of_ne distinct with day | night
  · simp [hoursHold_iff_of_opens_lt day, day, day.not_gt]
  · simp [hoursHold_iff_of_closes_lt night, night, night.not_gt]

/-! ### Open now (R10) -/

theorem openNow_iff_of_hours_none {l : Listing} (noHours : l.hours = none) (clockSet : Bool) (m : Nat) :
    openNow l clockSet m = true ↔ l.status = .opened := by
  simp [openNow, noHours]

theorem openNow_iff_of_hours_some {l : Listing} {h : Hours} (hours : l.hours = some h) (clockSet : Bool) (m : Nat) :
    openNow l clockSet m = true ↔ l.status = .opened ∧ (clockSet = false ∨ hoursHold h m = true) := by
  simp [openNow, hours]

/-- Settles O18, by whether the listing has hours; the hours it has hold the minute as `hoursHold_iff` says. -/
theorem openNowDecided : Obligations.OpenNowDecided := by
  intro l clockSet m distinct
  cases hours : l.hours with
  | none => simp [openNow_iff_of_hours_none hours]
  | some h => simp [openNow_iff_of_hours_some hours, hoursHold_iff (distinct h hours)]

/-- A shop trading from 22:00 to 06:00. -/
def nightShop : Listing :=
  { name := [11], categories := [0], floor := 0, entrances := [0], status := .opened, forward := none,
    hours := some { opens := 1320, closes := 360 }, popularity := 0, reachStandard := true, reachStepFree := true }

/-- The settled statement at hours over midnight and a SET clock: open at the open minute and at minute 0, not at the
close minute, which the hours leave out. -/
theorem witness_openNowDecided_nightShop :
    openNow nightShop true 1320 = true ∧ openNow nightShop true 0 = true ∧ ¬ openNow nightShop true 360 = true := by
  have distinct : ∀ h, nightShop.hours = some h → h.opens ≠ h.closes := by simp [nightShop]
  simp only [openNowDecided nightShop true _ distinct]
  simp [nightShop]

end Sys2Proof.Proofs
end

section
/-! The application tests of the edits (R63 to R65): what each condition that a test reads says of the records, and from
them the tests of each kind of edit in their order. -/

namespace Sys2Proof.Proofs
open Sys2Proof.Machine Sys2Proof.Safety

/-! ### Tests made in order -/

/-- One test of a chain. The tests after it are made only when its condition fails, and may use that. -/
theorem testedInOrder_ite {p c : Prop} [Decidable c] {r : Reason} {tests : List (Prop × Reason)} {o : Option Reason}
    (condition : c ↔ p) (later : ¬p → testedInOrder tests o) :
    testedInOrder ((p, r) :: tests) (if c then some r else o) :=
  ⟨fun h => if_pos (condition.mpr h), fun h => (if_neg (mt condition.mp h)).symm ▸ later h⟩

/-- The last test of a chain. -/
theorem testedInOrder_last {p c : Prop} [Decidable c] {r : Reason} (condition : c ↔ p) :
    testedInOrder [(p, r)] (if c then some r else none) :=
  testedInOrder_ite condition fun _ => rfl

/-- One test may stand for two neighbours with the same reason. -/
theorem testedInOrder_of_or {p q : Prop} {r : Reason} {tests : List (Prop × Reason)} {o : Option Reason}
    (h : testedInOrder ((p ∨ q, r) :: tests) o) : testedInOrder ((p, r) :: (q, r) :: tests) o :=
  ⟨fun hp => h.1 (.inl hp), fun hp => ⟨fun hq => h.1 (.inr hq), fun hq => h.2 (not_or.mpr ⟨hp, hq⟩)⟩⟩

/-! ### What the conditions of the tests say -/

theorem inUse_eq_false_iff {α : Type} (t : List (Nat × α)) (k : Nat) :
    inUse t k = false ↔ tableGet t k = none := by
  simp [inUse]

/-- The test of a command that asks for an in-use number alone. -/
theorem testedInOrder_inUse {α : Type} (t : List (Nat × α)) (k : Nat) (r : Reason) :
    testedInOrder [(tableGet t k = none, r)] (if inUse t k then none else some r) := by
  rw [← ite_not]
  exact testedInOrder_last (by rw [Bool.not_eq_true, inUse_eq_false_iff])

/-- A free node entry has no kind: the test of a kind fails it too. -/
theorem kindOf_ne_iff (wg : Graph) (n : Nat) (kind : NodeKind) :
    (kindOf wg n != some kind) = true ↔ ∀ x, tableGet wg.nodes n = some x → x.kind ≠ kind := by
  cases h : tableGet wg.nodes n <;> simp [kindOf, h]

theorem forwardFails_iff (ds : Directory) (status : ListingStatus) (forward : Option Nat) :
    forwardFails ds status forward = true ↔
      status = .relocated ∧ ∀ m, forward = some m → tableGet ds.listings m = none := by
  cases forward <;> simp [forwardFails, inUse]

theorem namedAsEntrance_iff (ds : Directory) (n : Nat) :
    namedAsEntrance ds n = true ↔ ∃ l ∈ ds.listings, n ∈ l.2.entrances := by
  simp [namedAsEntrance]

theorem isHome_iff (wg : Graph) (n : Nat) : isHome wg n = true ↔ ∃ a : Addr, wg.homes[a] = some n := by
  simp only [isHome, List.contains_iff_mem, Vector.mem_toList_iff, Vector.mem_iff_getElem]
  exact ⟨fun ⟨i, hi, h⟩ => ⟨⟨i, hi⟩, h⟩, fun ⟨a, h⟩ => ⟨a.val, a.isLt, h⟩⟩

theorem isExit_eq_false_iff (kind : NodeKind) : isExit kind = false ↔ ∀ state, kind ≠ .exit state := by
  cases kind <;> simp [isExit]

theorem horizontal_iff (kind : SegmentKind) : horizontal kind = true ↔ kind = .walk ∨ kind = .ramp := by
  cases kind <;> simp [horizontal]

theorem touches_eq_false_iff (g : SegmentForm) (n : Nat) : touches g n = false ↔ g.endA ≠ n ∧ g.endB ≠ n := by
  simp [touches]

/-- R64: the ends of a WALK or RAMP lie on one floor, those of the other kinds on two. -/
theorem floorsFail_iff (wg : Graph) (f : SegmentForm) : floorsFail wg f = true ↔
    ((f.kind = .walk ∨ f.kind = .ramp) ↔ floorOf wg f.endA ≠ floorOf wg f.endB) := by
  rw [← horizontal_iff]
  cases h : horizontal f.kind <;> simp [floorsFail, h]

theorem endFull_iff (wg : Graph) (n m : Nat) : endFull wg n m = true ↔
    6 ≤ degree wg m ∧ ∀ g, tableGet wg.segments n = some g → g.endA ≠ m ∧ g.endB ≠ m := by
  cases h : tableGet wg.segments n <;> simp [endFull, h, touches_eq_false_iff, and_comm]

/-- R64: an in-use node keeps its kind while a listing enters by it, while it is a home, and as a usable exit. -/
theorem kindHeld_iff (s : State) (n : Nat) (old new : NodeKind) : kindHeld s n old new = true ↔
    (old = .entrance ∧ new ≠ .entrance ∧ ∃ l ∈ s.ds.listings, n ∈ l.2.entrances)
    ∨ (old = .kiosk ∧ new ≠ .kiosk ∧ ∃ a : Addr, s.wg.homes[a] = some n)
    ∨ (old = .exit .usable ∧ ∀ state, new ≠ .exit state) := by
  rw [← namedAsEntrance_iff, ← isHome_iff, ← isExit_eq_false_iff]
  cases old with
  | exit state => cases state <;> simp [kindHeld]
  | entrance | kiosk | junction | landing | amenity => simp [kindHeld]

/-! ### The tests of each kind of edit -/

section
variable (s : State)

/-- The kinds of the entrances are tested once each of them is in use. -/
theorem putListingTest_inOrder (f : ListingForm) : testedInOrder
    [(∃ m ∈ f.entrances, tableGet s.wg.nodes m = none, .noSuchNode),
     (∃ m ∈ f.entrances, ∃ x, tableGet s.wg.nodes m = some x ∧ x.kind ≠ .entrance, .notEntrance),
     (f.status = .relocated ∧ ∀ m, f.forward = some m → tableGet s.ds.listings m = none, .noSuchListing)]
    (putListingTest s f) := by
  refine testedInOrder_ite (by simp [inUse_eq_false_iff]) fun allInUse => ?_
  refine testedInOrder_ite ?_ fun _ => testedInOrder_last (forwardFails_iff s.ds f.status f.forward)
  simp only [List.any_eq_true, kindOf_ne_iff]
  refine exists_congr fun m => and_congr_right fun hm => ?_
  obtain ⟨x, hx⟩ := Option.ne_none_iff_exists'.mp fun free => allInUse ⟨m, hm, free⟩
  simp [hx]

theorem setStatusTest_inOrder (n : Nat) (status : ListingStatus) (forward : Option Nat) : testedInOrder
    [(tableGet s.ds.listings n = none, .noSuchListing),
     (status = .relocated ∧ ∀ m, forward = some m → tableGet s.ds.listings m = none, .noSuchListing)]
    (setStatusTest s n status forward) :=
  testedInOrder_ite (by simp [inUse_eq_false_iff]) fun _ =>
    testedInOrder_last (forwardFails_iff s.ds status forward)

theorem putNodeTest_free {n : Nat} (free : tableGet s.wg.nodes n = none) (f : NodeForm) : putNodeTest s n f = none := by
  simp [putNodeTest, free]

/-- The model makes one test of the three that R64 has on the kind. -/
theorem putNodeTest_inOrder {n : Nat} {x : Node} (used : tableGet s.wg.nodes n = some x) (f : NodeForm) : testedInOrder
    [(x.floor ≠ f.floor ∧ x.adjacency ≠ [], .nodeInUse),
     (x.kind = .entrance ∧ f.kind ≠ .entrance ∧ ∃ l ∈ s.ds.listings, n ∈ l.2.entrances, .nodeInUse),
     (x.kind = .kiosk ∧ f.kind ≠ .kiosk ∧ ∃ a : Addr, s.wg.homes[a] = some n, .nodeInUse),
     (x.kind = .exit .usable ∧ ∀ state, f.kind ≠ .exit state, .nodeInUse)]
    (putNodeTest s n f) := by
  simp only [putNodeTest, used]
  refine testedInOrder_ite Iff.rfl fun _ => ?_
  have kinds := testedInOrder_of_or (testedInOrder_last (r := .nodeInUse) (kindHeld_iff s n x.kind f.kind))
  exact ⟨kinds.1, fun h => testedInOrder_of_or (kinds.2 h)⟩

theorem removeNodeTest_inOrder (n : Nat) : testedInOrder
    [(tableGet s.wg.nodes n = none, .noSuchNode),
     ((∃ x, tableGet s.wg.nodes n = some x ∧ x.adjacency ≠ []) ∨ (∃ l ∈ s.ds.listings, n ∈ l.2.entrances)
        ∨ ∃ a : Addr, s.wg.homes[a] = some n, .nodeInUse)]
    (removeNodeTest s n) := by
  rw [← namedAsEntrance_iff, ← isHome_iff]
  cases entry : tableGet s.wg.nodes n with
  | none => simp [removeNodeTest, entry, testedInOrder]
  | some x =>
    simp only [removeNodeTest, entry]
    exact ⟨nofun, fun _ => testedInOrder_last (by simp)⟩

theorem putSegmentTest_inOrder (wg : Graph) (n : Nat) (f : SegmentForm) : testedInOrder
    [(tableGet wg.nodes f.endA = none ∨ tableGet wg.nodes f.endB = none, .noSuchNode),
     ((f.kind = .walk ∨ f.kind = .ramp) ↔ floorOf wg f.endA ≠ floorOf wg f.endB, .floorMismatch),
     (∃ m, (m = f.endA ∨ m = f.endB) ∧ 6 ≤ degree wg m
        ∧ ∀ g, tableGet wg.segments n = some g → g.endA ≠ m ∧ g.endB ≠ m, .degreeFull)]
    (putSegmentTest wg n f) := by
  refine testedInOrder_ite (by simp [inUse_eq_false_iff]) fun _ => testedInOrder_ite (floorsFail_iff wg f) fun _ =>
    testedInOrder_last ?_
  simp only [← endFull_iff, Bool.or_eq_true, or_and_right, exists_or, exists_eq_left]

theorem setExitTest_inOrder (wg : Graph) (n : Nat) : testedInOrder
    [(tableGet wg.nodes n = none, .noSuchNode),
     (∀ x old, tableGet wg.nodes n = some x → x.kind ≠ .exit old, .notExit)]
    (setExitTest wg n) := by
  cases entry : tableGet wg.nodes n with
  | none => simp [setExitTest, entry, testedInOrder]
  | some x =>
    simp only [setExitTest, entry, ← ite_not (isExit x.kind = true)]
    refine ⟨nofun, fun _ => testedInOrder_last ?_⟩
    rw [Bool.not_eq_true, isExit_eq_false_iff]
    exact ⟨fun h _ old e => Option.some.inj e ▸ h old, fun h old => h x old rfl⟩

theorem setHomeTest_inOrder (wg : Graph) (n : Nat) : testedInOrder
    [(tableGet wg.nodes n = none, .noSuchNode),
     (∀ x, tableGet wg.nodes n = some x → x.kind ≠ .kiosk, .notKiosk)]
    (setHomeTest wg (some n)) :=
  testedInOrder_ite (by simp [inUse_eq_false_iff]) fun _ => testedInOrder_last (kindOf_ne_iff wg n .kiosk)

end

/-- Settles O39, by the tests of each kind of edit; the kinds that ask for an in-use number alone share one lemma. -/
theorem editsTestedInOrder : Obligations.EditsTestedInOrder := fun s =>
  ⟨fun _ f => putListingTest_inOrder s f,
   fun n status forward => setStatusTest_inOrder s n status forward,
   fun n => testedInOrder_inUse s.ds.listings n .noSuchListing,
   fun _ f free => putNodeTest_free s free f,
   fun _ f _ used => putNodeTest_inOrder s used f,
   fun n => removeNodeTest_inOrder s n,
   fun n f => putSegmentTest_inOrder s.wg n f,
   fun n _ => testedInOrder_inUse s.wg.segments n .noSuchSegment,
   fun n => testedInOrder_inUse s.wg.segments n .noSuchSegment,
   fun n _ => setExitTest_inOrder s.wg n,
   fun _ n => setHomeTest_inOrder s.wg n,
   fun _ => rfl,
   fun _ => rfl⟩

/-- A part whose one node in use is a kiosk. -/
def kioskOnly : State :=
  { State.reset with
    wg := { State.reset.wg with nodes := [(10, { floor := 1, kind := .kiosk, x := 0, y := 0, adjacency := [] })] } }

/-- A shop entered by the kiosk and by a free node. -/
def misplacedShop : ListingForm :=
  { name := [11], categories := [0], floor := 1, entrances := [10, 2047], status := .opened, forward := none,
    hours := none }

/-- The settled statement where two tests of R63 fail, on different entrances: the first test decides, not the first
entrance. -/
theorem witness_editsTestedInOrder_misplacedShop :
    (∃ m ∈ misplacedShop.entrances, ∃ x, tableGet kioskOnly.wg.nodes m = some x ∧ x.kind ≠ .entrance)
    ∧ editTest (.putListing 7 misplacedShop) kioskOnly = some .noSuchNode := by
  obtain ⟨putListing, -⟩ := editsTestedInOrder kioskOnly
  exact ⟨⟨10, by decide, _, rfl, by decide⟩, (putListing 7 misplacedShop).1 ⟨2047, by decide, rfl⟩⟩

end Sys2Proof.Proofs
end

section
/-! UNSCHEDULE and SET TIME (R52, R55): the part with one pass over the scheduled list made, with both passes of an
event made, and with the clock set; and the two commands on them. -/

namespace Sys2Proof.Proofs
open Sys2Proof.Machine Sys2Proof.Safety Sys2Proof.Laws

/-! ### The passes over the scheduled list (R56) -/

/-- SCHEDULE_DUE alone, or no flag. -/
def dueFlag (becameDue : Bool) : AttnFlags := if becameDue then 32 else 0

theorem dueFlag_or (f : AttnFlags) (a b : Bool) : f ||| dueFlag a ||| dueFlag b = f ||| dueFlag (a || b) := by
  rw [BitVec.or_assoc]; cases a <;> cases b <;> rfl

theorem passOf_eq (served : Scheduled → Bool) (s : State) : passOf served s =
    ({ s with cs := (servePass served s.cs).cs
              ep := { s.ep with flags := s.ep.flags ||| dueFlag (servePass served s.cs).becameDue } },
     (servePass served s.cs).urgent) := by
  cases due : (servePass served s.cs).becameDue <;> simp [passOf, due, dueFlag, raiseFlag, scheduleDue]

/-- The DUE entries are served first, then those that the event reaches, as the first pass has left the list. -/
theorem serveSchedule_eq (reached : Nat → Bool) (s : State) :
    let first := servePass (fun e => e.due) s.cs
    let second := servePass (fun e => !e.due && reached e.minute) first.cs
    serveSchedule reached s =
      ({ s with cs := second.cs
                ep := { s.ep with flags := s.ep.flags ||| dueFlag (first.becameDue || second.becameDue) } },
       first.urgent || second.urgent) := by
  simp only [serveSchedule, duePass, passOf_eq, dueFlag_or]

/-- The passes read and write nothing of a frame that is being taken. -/
theorem serveSchedule_held (reached : Nat → Bool) (bytes : Nat) (s : State) : serveSchedule reached (held bytes s) =
    (held bytes (serveSchedule reached s).1, (serveSchedule reached s).2) := by
  simp only [serveSchedule_eq]; rfl

/-! ### SET TIME to a minute in range (R52) -/

/-- The part with its clock SET to the start of a minute. -/
def withClock (n : Nat) (s : State) : State :=
  { s with cs := { s.cs with clock := { set := true, minute := n, seconds := 0 } } }

theorem withClock_held (n bytes : Nat) (s : State) : withClock n (held bytes s) = held bytes (withClock n s) := rfl

theorem setTime_eq (n : Nat) (s : State) : setTime n s =
    if s.cs.clock.set = true ∧ s.cs.clock.minute < n then
      let r := serveSchedule (fun m => decide (s.cs.clock.minute < m) && decide (m ≤ n)) (withClock n s)
      requestIf r.2 r.1
    else withClock n s := rfl

theorem setTime_held (n bytes : Nat) (s : State) : setTime n (held bytes s) = held bytes (setTime n s) := by
  simp only [setTime_eq, held_frame, withClock_held, serveSchedule_held, requestIf_held]
  exact (apply_ite (held bytes) _ _ _).symm

theorem setTime_not_forward {n : Nat} {s : State} (h : s.cs.clock.set = false ∨ n ≤ s.cs.clock.minute) :
    setTime n s = withClock n s := by
  refine if_neg fun ⟨set, forward⟩ => ?_
  rcases h with unset | back
  · simp [unset] at set
  · omega

theorem setTime_forward {n : Nat} {s : State} (set : s.cs.clock.set = true) (forward : s.cs.clock.minute < n) :
    let first := servePass (fun e => e.due) (withClock n s).cs
    let second := servePass
      (fun e => !e.due && (decide (s.cs.clock.minute < e.minute) && decide (e.minute ≤ n))) first.cs
    setTime n s = requestIf (first.urgent || second.urgent)
      { s with cs := second.cs
               ep := { s.ep with flags := s.ep.flags ||| dueFlag (first.becameDue || second.becameDue) } } := by
  rw [setTime_eq, if_pos ⟨set, forward⟩, serveSchedule_eq]
  rfl

/-! ### The commands -/

theorem keepForming_actUnschedule (n : Byte) (bytes : Nat) (s : State) :
    keepForming (actUnschedule [n] (held bytes s)) =
      if n = 0 then taken bytes (refusedWith 1) s
      else if ∃ e ∈ s.cs.schedule, e.number = n.toNat then
        taken bytes (okReply [])
          { s with cs := { s.cs with schedule := s.cs.schedule.filter fun e => e.number != n.toNat } }
      else taken bytes (refusedWith 7) s := by
  have number : byteAt [n] 0 = n.toNat := rfl
  have zero : n.toNat = 0 ↔ n = 0 := BitVec.toNat_inj (y := 0)
  simp only [actUnschedule, number, zero, held_frame, List.any_eq_true, beq_iff_eq]
  split
  · rfl
  · split <;> rfl

theorem keepForming_actSetTime (hi lo : Byte) (bytes : Nat) (s : State) :
    keepForming (actSetTime [hi, lo] (held bytes s)) =
      if 1439 < 256 * hi.toNat + lo.toNat then taken bytes (refusedWith 1) s
      else taken bytes (okReply []) (setTime (256 * hi.toNat + lo.toNat) s) := by
  have minute : wordAt [hi, lo] 0 = 256 * hi.toNat + lo.toNat := rfl
  simp only [actSetTime, minute, setTime_held]
  split <;> rfl

/-- Settles O20, from the reply that `keepForming_actUnschedule` gives in each case. -/
theorem unscheduleRemoves : Obligations.UnscheduleRemoves := by
  intro n s ht
  have acts : exec (.unschedule (frameOf [n])) s = .next (keepForming (actUnschedule [n] (held 3 s))) :=
    exec_frameOf (h := { fits := exactly 1, act := actUnschedule }) rfl ht (by simp) rfl
  rw [acts, keepForming_actUnschedule]
  refine ⟨fun zero => by rw [if_pos zero], fun nonzero present => by rw [if_neg nonzero, if_pos present],
    fun nonzero absent => ?_⟩
  have unheld : ¬∃ e ∈ s.cs.schedule, e.number = n.toNat := fun ⟨e, he, same⟩ => absent e he same
  rw [if_neg nonzero, if_neg unheld]

/-- Settles O22, from what setting a minute in range does when the clock moves forward and when it does not. -/
theorem timeSet : Obligations.TimeSet := by
  intro hi lo s ht
  have acts : exec (.setTime (frameOf [hi, lo])) s = .next (keepForming (actSetTime [hi, lo] (held 4 s))) :=
    exec_frameOf (h := { fits := exactly 2, act := actSetTime }) rfl ht (by simp) rfl
  rw [acts, keepForming_actSetTime]
  refine ⟨fun outOfRange => by rw [if_pos outOfRange], fun inRange notForward => ?_, fun inRange set forward => ?_⟩
  · rw [if_neg inRange.not_gt, setTime_not_forward notForward]
    rfl
  · rw [if_neg inRange.not_gt, setTime_forward set forward]
    rfl

end Sys2Proof.Proofs
end

section
/-! Route cost and time arithmetic (chapter 5), the legs of a path (R136) and its untruncated steps (R137 to R139). -/

namespace Sys2Proof.Proofs
open Sys2Proof.Machine Sys2Proof.Safety

/-! ### Permitted moves (R37) -/

theorem kindAllowed_iff (profile : Profile) (kind : SegmentKind) : kindAllowed profile kind = true ↔
    ¬(profile = .stepFree ∧ (kind = .stair ∨ kind = .escalator)) ∧ ¬(profile = .evacuation ∧ kind = .lift) := by
  cases profile <;> cases kind <;> decide

theorem directionAllows_iff (g : Segment) (p : Nat) : directionAllows g p = true ↔
    g.direction = .both ∨ (g.direction = .aToB ∧ g.endA = p) ∨ (g.direction = .bToA ∧ g.endB = p) := by
  cases h : g.direction <;> simp [directionAllows, h]

theorem permitted_iff (profile : Profile) (g : Segment) (p q : Nat) : permitted profile g p q = true ↔
    ((g.endA = p ∧ g.endB = q) ∨ (g.endA = q ∧ g.endB = p)) ∧ g.state = .opened
    ∧ ¬(profile = .stepFree ∧ (g.kind = .stair ∨ g.kind = .escalator)) ∧ ¬(profile = .evacuation ∧ g.kind = .lift)
    ∧ (g.direction = .both ∨ (g.direction = .aToB ∧ g.endA = p) ∨ (g.direction = .bToA ∧ g.endB = p)
      ∨ (profile = .evacuation ∧ g.kind = .escalator)) := by
  simp only [permitted, Bool.and_eq_true, Bool.or_eq_true, beq_iff_eq, kindAllowed_iff, directionAllows_iff, and_assoc,
    or_assoc]

/-! ### Segment cost (R90 to R93) -/

theorem floorSpan_eq (a b : Nat) : floorSpan a b = ((a : Int) - (b : Int)).natAbs := by
  simp only [floorSpan]; omega

/-- R196: the range of a vertical penalty. -/
theorem penalties_le_of_configOk {c : Configuration} (h : configOk c = true) :
    c.penaltyEscalator ≤ 1023 ∧ c.penaltyStair ≤ 1023 ∧ c.penaltyLift ≤ 1023 := by
  simp only [configOk, Bool.and_eq_true, and_assoc] at h
  obtain ⟨-, -, -, -, -, penalties, -⟩ := h
  simpa using penalties

theorem verticalPenalty_eq (c : Configuration) (profile : Profile) (kind : SegmentKind) (d : Nat) :
    verticalPenalty c profile kind d = (match kind with
      | .walk | .ramp => 0
      | .stair => c.penaltyStair * d
      | .escalator => (if profile = .evacuation then c.penaltyStair else c.penaltyEscalator) * d
      | .lift => c.penaltyLift + 16 * d) := by
  cases kind with
  | escalator => cases profile <;> rfl
  | walk | ramp | stair | lift => rfl

/-- Seven floors at the highest penalty of a floor are more than the highest penalty of a lift with its seven floors. -/
theorem verticalPenalty_le {c : Configuration} (ok : configOk c = true) (profile : Profile) (kind : SegmentKind)
    {d : Nat} (hd : d ≤ 7) : verticalPenalty c profile kind d ≤ 7161 := by
  obtain ⟨escalator, stair, lift⟩ := penalties_le_of_configOk ok
  have perFloor {v : Nat} (hv : v ≤ 1023) : v * d ≤ 1023 * 7 := Nat.mul_le_mul hv hd
  cases kind with
  | walk | ramp => simp [verticalPenalty]
  | stair => exact perFloor stair
  | escalator => cases profile with
    | evacuation => exact perFloor stair
    | standard | stepFree => exact perFloor escalator
  | lift => simp only [verticalPenalty]; omega

theorem baseCost_bounds {length weight : Nat} (hl : 1 ≤ length) (hl' : length ≤ 4095) (hw : 16 ≤ weight)
    (hw' : weight ≤ 64) : 1 ≤ baseCost length weight ∧ baseCost length weight ≤ 16380 := by
  have least : 1 * 16 ≤ length * weight := Nat.mul_le_mul hl hw
  have most : length * weight ≤ 4095 * 64 := Nat.mul_le_mul hl' hw'
  simp only [baseCost]; omega

theorem segmentCost_bounds {c : Configuration} (ok : configOk c = true) (profile : Profile) {wg : Graph} {g : Segment}
    (hl : 1 ≤ g.length) (hl' : g.length ≤ 4095) (hw : 16 ≤ g.weight) (hw' : g.weight ≤ 64)
    (hA : floorOf wg g.endA ≤ 7) (hB : floorOf wg g.endB ≤ 7) :
    1 ≤ segmentCost c profile wg g ∧ segmentCost c profile wg g ≤ 23541 := by
  have span : spanOf wg g ≤ 7 := by simp only [spanOf, floorSpan]; omega
  have base := baseCost_bounds hl hl' hw hw'
  have penalty := verticalPenalty_le ok profile g.kind span
  simp only [segmentCost]; omega

/-! ### Time (R97 to R99) -/

/-- The least number of seconds whose product with the pace is no less than the length. -/
theorem ceilDiv_spec (n : Nat) {d : Nat} (hd : 0 < d) :
    n ≤ d * ceilDiv n d ∧ (ceilDiv n d = 0 ∨ d * (ceilDiv n d - 1) < n) := by
  have whole := Nat.div_add_mod (n + d - 1) d
  have part := Nat.mod_lt (n + d - 1) hd
  simp only [ceilDiv, Nat.mul_sub_one]
  generalize (n + d - 1) / d = q at whole
  rcases Nat.eq_zero_or_pos q with rfl | positive
  · omega
  · have least : d ≤ d * q := Nat.le_mul_of_pos_right d positive
    omega

theorem minutesOf_eq (n : Nat) : minutesOf n = (min 99 ((n + 59) / 60), decide (5940 < n)) := by
  have long : 99 < ceilDiv n 60 ↔ 5940 < n := by simp only [ceilDiv]; omega
  have minutes : ceilDiv n 60 = (n + 59) / 60 := rfl
  by_cases h : 5940 < n
  · rw [minutesOf, if_pos (long.mpr h), ← minutes, min_eq_left (long.mpr h).le, decide_eq_true h]
  · rw [minutesOf, if_neg (mt long.mp h), ← minutes, min_eq_right (not_lt.mp (mt long.mp h)), decide_eq_false h]

theorem horizontalLength_eq (legs : List Leg) : horizontalLength legs =
    ((legs.filter fun l => l.kind == .walk || l.kind == .ramp).map fun l => l.length).sum := by
  induction legs with
  | nil => rfl
  | cons l rest ih =>
    have tail : horizontalLength (l :: rest) = (if horizontal l.kind then l.length else 0) + horizontalLength rest := rfl
    rw [tail, ih]
    cases kind : l.kind <;> simp [horizontal, kind]

/-- The vertical seconds of one leg besides the lift wait. -/
def rideSeconds (c : Configuration) (profile : Profile) (l : Leg) : Nat :=
  match l.kind with
  | .walk | .ramp => 0
  | .stair => c.stairClimb * l.span
  | .escalator => (if profile = .evacuation then c.stairClimb else c.escalatorRide) * l.span
  | .lift => c.liftTravel * l.span

/-- The kind of the leg before the leg at place i, `before` standing for the leg before the first. -/
def kindBefore (before : Option SegmentKind) (legs : List Leg) : Nat → Option SegmentKind
  | 0 => before
  | i + 1 => kindAt legs i

/-- A run of lifts begins with the leg at place i. -/
def boardsLift (before : Option SegmentKind) (legs : List Leg) (i : Nat) : Bool :=
  kindAt legs i == some .lift && kindBefore before legs i != some .lift

theorem kindAt_cons_succ (l : Leg) (rest : List Leg) (i : Nat) : kindAt (l :: rest) (i + 1) = kindAt rest i := rfl

theorem boardsLift_cons_succ (before : Option SegmentKind) (l : Leg) (rest : List Leg) (i : Nat) :
    boardsLift before (l :: rest) (i + 1) = boardsLift (some l.kind) rest i := by
  cases i <;> rfl

theorem boardsLift_none (legs : List Leg) (i : Nat) : boardsLift none legs i =
    (kindAt legs i == some .lift && (i == 0 || kindAt legs (i - 1) != some .lift)) := by
  cases i <;> simp [boardsLift, kindBefore]

theorem verticalSeconds_cons (c : Configuration) (profile : Profile) (before : Option SegmentKind) (l : Leg)
    (rest : List Leg) : verticalSeconds c profile before (l :: rest) =
      rideSeconds c profile l + (if boardsLift before (l :: rest) 0 then c.liftWait else 0)
        + verticalSeconds c profile (some l.kind) rest := by
  cases kind : l.kind with
  | walk | ramp | stair => simp [verticalSeconds, rideSeconds, boardsLift, kindAt, kind]
  | escalator => cases profile <;> simp [verticalSeconds, rideSeconds, boardsLift, kindAt, kind]
  | lift =>
    by_cases riding : before = some .lift <;>
      simp [verticalSeconds, rideSeconds, boardsLift, kindAt, kindBefore, kind, riding, Nat.add_comm]

theorem verticalSeconds_eq (c : Configuration) (profile : Profile) (before : Option SegmentKind) (legs : List Leg) :
    verticalSeconds c profile before legs = (legs.map (rideSeconds c profile)).sum
      + c.liftWait * ((List.range legs.length).filter (boardsLift before legs)).length := by
  induction legs generalizing before with
  | nil => rfl
  | cons l rest ih =>
    have shifted : boardsLift before (l :: rest) ∘ Nat.succ = boardsLift (some l.kind) rest :=
      funext (boardsLift_cons_succ before l rest)
    rw [verticalSeconds_cons, ih, List.length_cons, List.range_succ_eq_map, List.filter_cons, List.filter_map, shifted]
    split <;> simp [Nat.mul_add] <;> omega

/-! ### Turn classes (R101) -/

/-- The tests of R101 on the cross and the dot product, for points of which no successive two are equal. -/
def sideOf (cross dot : Int) : TurnClass :=
  if 8 * cross.natAbs ≤ 3 * dot then .straight
  else if 8 * cross.natAbs ≤ -(3 * dot) then .back
  else if 0 < cross then .left
  else .right

/-- The class of the same turn taken the other way. -/
def mirror : TurnClass → TurnClass
  | .left => .right
  | .right => .left
  | .straight => .straight
  | .back => .back

theorem turnClass_eq (px py nx ny qx qy : Int) : turnClass px py nx ny qx qy =
    if (nx - px = 0 ∧ ny - py = 0) ∨ (qx - nx = 0 ∧ qy - ny = 0) then .straight
    else sideOf ((nx - px) * (qy - ny) - (ny - py) * (qx - nx)) ((nx - px) * (qx - nx) + (ny - py) * (qy - ny)) := rfl

/-- The last test is reached by a turn to a side alone: one of the first two holds of a cross product of 0. -/
theorem sideOf_sideways {cross dot : Int} (notStraight : ¬8 * (cross.natAbs : Int) ≤ 3 * dot)
    (notBack : ¬8 * (cross.natAbs : Int) ≤ -(3 * dot)) :
    (0 < cross ∧ sideOf cross dot = .left) ∨ (cross < 0 ∧ sideOf cross dot = .right) := by
  have sideways : sideOf cross dot = if 0 < cross then .left else .right := by
    rw [sideOf, if_neg notStraight, if_neg notBack]
  rw [sideways]
  rcases lt_trichotomy cross 0 with right | none | left
  · exact .inr ⟨right, if_neg right.not_gt⟩
  · omega
  · exact .inl ⟨left, if_pos left⟩

theorem sideOf_neg (cross dot : Int) : sideOf (-cross) dot = mirror (sideOf cross dot) := by
  have size : (-cross).natAbs = cross.natAbs := Int.natAbs_neg cross
  by_cases straight : 8 * (cross.natAbs : Int) ≤ 3 * dot
  · rw [sideOf, sideOf, size, if_pos straight, if_pos straight, mirror]
  by_cases back : 8 * (cross.natAbs : Int) ≤ -(3 * dot)
  · rw [sideOf, sideOf, size, if_neg straight, if_neg straight, if_pos back, if_pos back, mirror]
  have reversed := sideOf_sideways (size ▸ straight) (size ▸ back)
  rcases sideOf_sideways straight back with ⟨left, side⟩ | ⟨right, side⟩
  · rcases reversed with ⟨h, -⟩ | ⟨-, side'⟩
    · omega
    · rw [side, side', mirror]
  · rcases reversed with ⟨-, side'⟩ | ⟨h, -⟩
    · rw [side, side', mirror]
    · omega

/-- Walking the other way negates the cross product and keeps the dot product. -/
theorem turnClass_reverse (px py nx ny qx qy : Int) :
    turnClass qx qy nx ny px py = mirror (turnClass px py nx ny qx qy) := by
  have cross : (nx - qx) * (py - ny) - (ny - qy) * (px - nx) = -((nx - px) * (qy - ny) - (ny - py) * (qx - nx)) := by
    ring
  have dot : (nx - qx) * (px - nx) + (ny - qy) * (py - ny) = (nx - px) * (qx - nx) + (ny - py) * (qy - ny) := by ring
  have zero : ((nx - qx = 0 ∧ ny - qy = 0) ∨ (px - nx = 0 ∧ py - ny = 0)) ↔
      (nx - px = 0 ∧ ny - py = 0) ∨ (qx - nx = 0 ∧ qy - ny = 0) := by omega
  rw [turnClass_eq, turnClass_eq, cross, dot, sideOf_neg, if_congr zero rfl rfl, apply_ite mirror, mirror]

/-! ### The nodes and lengths of a path -/

/-- The nodes from place i on are those of the rest of the path. -/
theorem nodeAt_add (first : Nat) (legs : List Leg) (i n : Nat) :
    nodeAt first legs (i + n) = nodeAt (nodeAt first legs i) (legs.drop i) n := by
  cases n with
  | zero => rfl
  | succ n => simp [nodeAt]

theorem nodeAt_succ {first : Nat} {legs : List Leg} {i : Nat} {l : Leg} (hl : legs[i]? = some l) :
    nodeAt first legs (i + 1) = l.node := by
  simp [nodeAt, hl]

theorem nodeAt_cons_succ (first : Nat) (l : Leg) (rest : List Leg) (i : Nat) :
    nodeAt first (l :: rest) (i + 1) = nodeAt l.node rest i := by
  rw [Nat.add_comm]; exact nodeAt_add first (l :: rest) 1 i

theorem lengthBetween_self (legs : List Leg) (i : Nat) : lengthBetween legs i i = 0 := by
  simp [lengthBetween]

theorem lengthBetween_succ {legs : List Leg} {b i : Nat} {l : Leg} (hb : b ≤ i) (hl : legs[i]? = some l) :
    lengthBetween legs b (i + 1) = lengthBetween legs b i + l.length := by
  obtain ⟨hi, -⟩ := List.getElem?_eq_some_iff.mp hl
  have within : b ≤ (legs.take i).length := by rw [List.length_take]; omega
  simp [lengthBetween, List.take_add_one, hl, List.drop_append_of_le_length within]

/-! ### The legs of a path (R136) -/

theorem length_legsOf {wg : Graph} {segments : List Nat} (used : ∀ m ∈ segments, tableGet wg.segments m ≠ none)
    (first : Nat) : (legsOf wg first segments).length = segments.length := by
  induction segments generalizing first with
  | nil => rfl
  | cons m rest ih =>
    obtain ⟨g, hg⟩ := Option.ne_none_iff_exists'.mp (used m (by simp))
    simp [legsOf, hg, ih fun k hk => used k (by simp [hk])]

theorem legsOf_getElem? {wg : Graph} {segments : List Nat} (used : ∀ m ∈ segments, tableGet wg.segments m ≠ none)
    (first : Nat) {i m : Nat} {g : Segment} (hm : segments[i]? = some m) (hg : tableGet wg.segments m = some g) :
    (legsOf wg first segments)[i]? = some
      { kind := g.kind, length := g.length, span := spanOf wg g
        node := otherEnd g (nodeAt first (legsOf wg first segments) i) } := by
  induction segments generalizing first i with
  | nil => simp at hm
  | cons k rest ih =>
    obtain ⟨h, hk⟩ := Option.ne_none_iff_exists'.mp (used k (by simp))
    simp only [legsOf, hk]
    cases i with
    | zero =>
      obtain rfl : k = m := by simpa using hm
      obtain rfl : h = g := by simpa [hk] using hg
      rfl
    | succ i => simpa [nodeAt_cons_succ] using ih (fun n hn => used n (by simp [hn])) (otherEnd h first) hm

/-! ### The step at a node (R138) -/

theorem runEnd_eq_nodeAt (kind : SegmentKind) (here : Nat) (legs : List Leg) :
    runEnd kind here legs = nodeAt here legs (legs.takeWhile fun l => l.kind == kind).length := by
  induction legs generalizing here with
  | nil => rfl
  | cons l rest ih =>
    by_cases same : l.kind = kind
    · simp [runEnd, same, ih, nodeAt_cons_succ]
    · simp [runEnd, same, nodeAt]

/-- The node before node ni and the kind of the segment that arrives from it. -/
def arrivedBy (first : Nat) (legs : List Leg) : Nat → Option (Nat × SegmentKind)
  | 0 => none
  | i + 1 => (kindAt legs i).map fun kind => (nodeAt first legs i, kind)

section
variable (wg : Graph) (first : Nat) {legs rest : List Leg} {i : Nat} {l : Leg}

theorem takeAt_eq (hd : legs.drop i = l :: rest) (hl : legs[i]? = some l) : takeAt wg first legs i l.kind =
    (.take l.kind (wayOf wg (nodeAt first legs i) l.node (runEnd l.kind l.node rest)),
      floorOf wg (runEnd l.kind l.node rest)) := by
  have last : nodeAt first legs (i + ((legs.drop i).takeWhile fun x => x.kind == l.kind).length)
      = runEnd l.kind l.node rest := by
    rw [nodeAt_add, ← runEnd_eq_nodeAt, hd, runEnd, if_pos rfl]
  simp only [takeAt, last, nodeAt_succ hl, wayOf]

theorem turnAt_eq (hl : legs[i + 1]? = some l) : turnAt wg first legs (i + 1) =
    (turnAction (classAt wg (nodeAt first legs i) (nodeAt first legs (i + 1)) l.node)).map
      fun a => (a, floorOf wg (nodeAt first legs (i + 1))) := by
  simp only [turnAt, nodeAt_succ hl, Nat.add_sub_cancel]
  cases classAt wg (nodeAt first legs i) (nodeAt first legs (i + 1)) l.node <;> rfl

theorem stepAt_horizontal (hl : legs[i]? = some l) (flat : horizontal l.kind = true) : stepAt wg first legs i =
    if 0 < i ∧ (kindAt legs (i - 1) = some .walk ∨ kindAt legs (i - 1) = some .ramp)
    then turnAt wg first legs i else none := by
  have kind : kindAt legs i = some l.kind := by simp [kindAt, hl]
  rcases (horizontal_iff l.kind).mp flat with h | h <;> simp only [stepAt, kind, h]

theorem stepAt_vertical (hl : legs[i]? = some l) (steep : horizontal l.kind = false) : stepAt wg first legs i =
    if 0 < i ∧ kindAt legs (i - 1) = some l.kind then none else some (takeAt wg first legs i l.kind) := by
  have kind : kindAt legs i = some l.kind := by simp [kindAt, hl]
  cases h : l.kind with
  | walk | ramp => simp [h, horizontal] at steep
  | stair | escalator | lift => simp only [stepAt, kind, h]

theorem actionAt_eq_stepAt (hd : legs.drop i = l :: rest) :
    actionAt wg (arrivedBy first legs i) (nodeAt first legs i) l rest = stepAt wg first legs i := by
  have hl : legs[i]? = some l := by rw [← List.head?_drop, hd]; rfl
  cases flat : horizontal l.kind with
  | true =>
    rw [stepAt_horizontal wg first hl flat]
    cases i with
    | zero => simp [actionAt, flat, arrivedBy]
    | succ i =>
      rw [turnAt_eq wg first hl]
      cases before : kindAt legs i <;> simp [actionAt, flat, arrivedBy, before, horizontal_iff]
  | false =>
    rw [stepAt_vertical wg first hl flat, takeAt_eq wg first hd hl]
    cases i with
    | zero => simp [actionAt, flat, arrivedBy]
    | succ i => cases before : kindAt legs i <;> simp [actionAt, flat, arrivedBy, before]

end

/-! ### The steps of a path (R138, R139) -/

/-- The step of an action at its place, with the length walked since place `before`. -/
def stepSince (first : Nat) (legs : List Leg) (before : Nat) (p : Nat × StepAction × Nat) : RouteStep :=
  { node := nodeAt first legs p.1, action := p.2.1, floor := p.2.2, distance := lengthBetween legs before p.1 }

/-- Placed actions as steps, each with the length walked since the place before it. -/
def stepsSince (first : Nat) (legs : List Leg) (before : Nat) (placed : List (Nat × StepAction × Nat)) :
    List RouteStep :=
  List.zipWith (stepSince first legs) (before :: placed.map fun p => p.1) placed

/-- The actions at the k places from place i on, and ARRIVE. -/
def placedFrom (wg : Graph) (first : Nat) (legs : List Leg) (i k : Nat) : List (Nat × StepAction × Nat) :=
  (List.range' i k).filterMap (fun j => (stepAt wg first legs j).map fun p => (j, p))
    ++ [(legs.length, .arrive, floorOf wg (nodeAt first legs legs.length))]

theorem stepsSince_cons (first : Nat) (legs : List Leg) (before : Nat) (p : Nat × StepAction × Nat)
    (placed : List (Nat × StepAction × Nat)) : stepsSince first legs before (p :: placed) =
      stepSince first legs before p :: stepsSince first legs p.1 placed := rfl

theorem placedFrom_succ (wg : Graph) (first : Nat) (legs : List Leg) (i k : Nat) :
    placedFrom wg first legs i (k + 1) =
      ((stepAt wg first legs i).map fun p => (i, p)).toList ++ placedFrom wg first legs (i + 1) k := by
  cases h : stepAt wg first legs i <;> simp [placedFrom, List.range'_succ, h]

theorem stepsOf_eq (wg : Graph) (first : Nat) (legs : List Leg) : stepsOf wg first legs =
    { node := first, action := .start, floor := floorOf wg first, distance := 0 }
      :: stepsSince first legs 0 (placedFrom wg first legs 0 legs.length) := by
  have placed : placedSteps wg first legs =
      (0, .start, floorOf wg first) :: placedFrom wg first legs 0 legs.length := by
    simp only [placedSteps, placedFrom, List.range_eq_range', List.cons_append]
  have start : stepsOf wg first legs = stepsSince first legs 0 (placedSteps wg first legs) := rfl
  rw [start, placed, stepsSince_cons, stepSince, lengthBetween_self, nodeAt]

/-- From place i on, with the last step at place `before`, the model walks the rest of the path. -/
theorem stepsFrom_eq_stepsSince (wg : Graph) (first : Nat) {legs rest : List Leg} {before i : Nat}
    (hb : before ≤ i) (hi : i ≤ legs.length) (hd : legs.drop i = rest) :
    stepsFrom wg (arrivedBy first legs i) (nodeAt first legs i) (lengthBetween legs before i) rest =
      stepsSince first legs before (placedFrom wg first legs i rest.length) := by
  induction rest generalizing before i with
  | nil =>
    obtain rfl : i = legs.length := Nat.le_antisymm hi (List.drop_eq_nil_iff.mp hd)
    rfl
  | cons l rest ih =>
    have hl : legs[i]? = some l := by rw [← List.head?_drop, hd]; rfl
    obtain ⟨hi', -⟩ := List.getElem?_eq_some_iff.mp hl
    have hd' : legs.drop (i + 1) = rest := by rw [← List.tail_drop, hd]; rfl
    have arrived : arrivedBy first legs (i + 1) = some (nodeAt first legs i, l.kind) := by
      simp [arrivedBy, kindAt, hl]
    have onward {b : Nat} (hb : b ≤ i) :
        stepsFrom wg (some (nodeAt first legs i, l.kind)) l.node (lengthBetween legs b i + l.length) rest =
          stepsSince first legs b (placedFrom wg first legs (i + 1) rest.length) := by
      rw [← ih (Nat.le_succ_of_le hb) hi' hd', arrived, nodeAt_succ hl, lengthBetween_succ hb hl]
    rw [stepsFrom, actionAt_eq_stepAt wg first hd, List.length_cons, placedFrom_succ]
    cases stepAt wg first legs i with
    | none => exact onward hb
    | some p =>
      have next := onward (le_refl i)
      rw [lengthBetween_self, Nat.zero_add] at next
      exact congrArg (stepSince first legs before (i, p) :: ·) next

theorem allSteps_eq_stepsOf (wg : Graph) (first : Nat) (legs : List Leg) :
    allSteps wg first legs = stepsOf wg first legs := by
  rw [stepsOf_eq, ← stepsFrom_eq_stepsSince wg first (le_refl 0) (Nat.zero_le _) List.drop_zero, lengthBetween_self]
  rfl

/-- Settles O56, a lemma for each clause: lift waits and the legs by induction on the path, the steps by the invariant
that `stepsFrom_eq_stepsSince` states of each place on the path. -/
theorem costsTimesAndTurns : Obligations.CostsTimesAndTurns := by
  refine ⟨permitted_iff, fun c profile wg g => ⟨?_, fun ok hl hl' hw hw' hA hB => ?_⟩, fun c => ⟨rfl, rfl, rfl⟩,
    fun c profile length pace => ceilDiv_spec (length * 10) pace, fun c profile legs => ⟨?_, ?_⟩,
    fun wg first segments used => ⟨length_legsOf used first, fun i m g hm hg => ?_⟩, allSteps_eq_stepsOf, minutesOf_eq,
    fun px py nx ny qx qy => ⟨fun zero => ?_, fun moved straight => ?_, fun moved notStraight back => ?_,
      fun moved notStraight notBack => ?_, turnClass_reverse px py nx ny qx qy⟩⟩
  · rw [segmentCost, verticalPenalty_eq, spanOf, floorSpan_eq]
    rfl
  · exact segmentCost_bounds ok profile hl hl' hw hw' hA hB
  · rw [verticalSeconds_eq, funext (boardsLift_none legs)]
    rfl
  · rw [totalSeconds, horizontalLength_eq]
  · exact ⟨_, legsOf_getElem? used first hm hg, rfl, rfl, floorSpan_eq _ _, rfl⟩
  · rw [turnClass_eq, if_pos zero]
  · rw [turnClass_eq, if_neg moved, sideOf, if_pos straight]
  · rw [turnClass_eq, if_neg moved, sideOf, if_neg notStraight, if_pos back]
  · rw [turnClass_eq, if_neg moved]
    exact sideOf_sideways notStraight notBack

/-- Up two floors by one lift after another, across a bridge, and up a third floor by a lift. -/
def liftsAndBridge : List Leg :=
  [{ kind := .lift, length := 10, span := 1, node := 1 }, { kind := .lift, length := 10, span := 1, node := 2 },
    { kind := .walk, length := 300, span := 0, node := 3 }, { kind := .lift, length := 10, span := 1, node := 4 }]

/-- The settled statement on a path with two runs of lifts: two waits of 45 seconds and three floors of 6. -/
theorem witness_costsTimesAndTurns_liftsAndBridge :
    verticalSeconds Configuration.default .standard none liftsAndBridge = 108 := by
  obtain ⟨-, -, -, -, vertical, -⟩ := costsTimesAndTurns
  rw [(vertical _ _ _).1]
  rfl

end Sys2Proof.Proofs
end

section
/-! The parameters of a FIND, BROWSE or ROUTE request (R107): the optional fields of a lookup, the conditions for a good
query of each kind, and from them when the bytes carry a query. -/

namespace Sys2Proof.Proofs
open Sys2Proof.Machine Sys2Proof.Safety

/-! ### The length of the parameters (R198) -/

theorem paramsFit_find_iff (p : List Byte) : paramsFit .find p = true ↔ p.length = 4 + byteAt p 3 ∧ p.length ≤ 249 := by
  have fields : byteAt p 3 = (p.getD 3 0).toNat := rfl
  simp only [paramsFit, fields, Bool.and_eq_true, decide_eq_true_eq]
  omega

theorem paramsFit_browse_iff (p : List Byte) : paramsFit .browse p = true ↔ p.length = 3 := by simp [paramsFit]

theorem paramsFit_route_iff (p : List Byte) : paramsFit .route p = true ↔ p.length = 6 := by simp [paramsFit]

/-! ### Optional fields -/

/-- The model divides where the statement tests a bit. -/
theorem testBit_eq (flags i : Nat) : flags.testBit i = decide (flags / 2 ^ i % 2 = 1) :=
  Nat.testBit_eq_decide_div_mod_eq

theorem openOnly_eq (flags : Nat) : (flags / 4 % 2 == 1) = flags.testBit 2 := (testBit_eq flags 2).symm

theorem givenField_iff (flags i value limit : Nat) (field : Option Nat) :
    givenField (flags.testBit i) value limit field ↔
      field = givenIf flags i value ∧ withinOr limit (givenIf flags i value) = true := by
  by_cases given : flags / 2 ^ i % 2 = 1
  · simp [givenField, givenIf, testBit_eq, given, withinOr]
  · simp [givenField, givenIf, testBit_eq, given, withinOr]

/-- A two-byte field where 0xFFFF is none, read as a number within a limit. -/
theorem wordOrNone_eq_iff {limit : Nat} (below : limit < 65535) (p : List Byte) (i : Nat) (field : Option Nat) :
    wordOrNone p i = field ∧ withinOr limit field = true ↔
      wordAt p i = field.getD 65535 ∧ ∀ n, field = some n → n ≤ limit := by
  cases field with
  | none => simp [wordOrNone, withinOr]
  | some n =>
    simp only [wordOrNone, withinOr, decide_eq_true_eq, Option.getD_some, Option.some.injEq, forall_eq',
      Option.ite_none_left_eq_some]
    omega

/-! ### Lookups -/

/-- The lookup that FIND parameters spell, good or not. -/
def findLookup (p : List Byte) : Lookup :=
  { typed := some (bytesAt p 4 (byteAt p 3)), category := givenIf (byteAt p 0) 0 (byteAt p 1)
    floor := givenIf (byteAt p 0) 1 (byteAt p 2), openOnly := byteAt p 0 / 4 % 2 == 1 }

/-- The lookup that BROWSE parameters spell, good or not. -/
def browseLookup (p : List Byte) : Lookup :=
  { typed := none, category := some (byteAt p 1), floor := givenIf (byteAt p 0) 1 (byteAt p 2)
    openOnly := byteAt p 0 / 4 % 2 == 1 }

theorem findQueryOf_eq (p : List Byte) :
    findQueryOf p = if lookupGood (findLookup p) then some (.find (findLookup p)) else none := rfl

theorem browseQueryOf_eq (p : List Byte) :
    browseQueryOf p = if lookupGood (browseLookup p) then some (.browse (browseLookup p)) else none := rfl

theorem queryCarried_find_iff (p : List Byte) (l : Lookup) :
    QueryCarried .find p (.find l) ↔ l = findLookup p ∧ lookupGood (findLookup p) = true := by
  obtain ⟨typed, category, floor, openOnly⟩ := l
  simp only [QueryCarried, givenField_iff, findLookup, lookupGood, openOnly_eq, Lookup.mk.injEq, Bool.and_eq_true,
    decide_eq_true_eq, List.all_eq_true, bytesAt, List.length_map, List.length_range]
  tauto

theorem queryCarried_browse_iff (p : List Byte) (l : Lookup) :
    QueryCarried .browse p (.browse l) ↔ l = browseLookup p ∧ lookupGood (browseLookup p) = true := by
  obtain ⟨typed, category, floor, openOnly⟩ := l
  simp only [QueryCarried, givenField_iff, browseLookup, lookupGood, openOnly_eq, Lookup.mk.injEq, Bool.and_eq_true,
    decide_eq_true_eq, Option.isSome_some, withinOr]
  tauto

theorem findQueryOf_eq_some_iff (p : List Byte) (q : Query) : findQueryOf p = some q ↔ QueryCarried .find p q := by
  rw [findQueryOf_eq, Option.ite_none_right_eq_some, Option.some.injEq]
  cases q with
  | find l => rw [queryCarried_find_iff, Query.find.injEq, and_comm, eq_comm]
  | browse l | route target profile origin => simp [QueryCarried]

theorem browseQueryOf_eq_some_iff (p : List Byte) (q : Query) :
    browseQueryOf p = some q ↔ QueryCarried .browse p q := by
  rw [browseQueryOf_eq, Option.ite_none_right_eq_some, Option.some.injEq]
  cases q with
  | browse l => rw [queryCarried_browse_iff, Query.browse.injEq, and_comm, eq_comm]
  | find l | route target profile origin => simp [QueryCarried]

/-! ### Routes -/

/-- The byte of a target's kind and the value of its two-byte field. -/
def targetFields : Target → Nat × Nat
  | .listing n => (0, n)
  | .node n => (1, n)
  | .amenity c => (2, c)

theorem targetOf_eq_some_iff (code value : Nat) (target : Target) :
    targetOf code value = some target ↔ (code, value) = targetFields target := by
  unfold targetOf
  split <;> cases target <;> simp_all [targetFields]

/-- A profile that a ROUTE may ask for (R107). -/
theorem profileOf_eq_some_iff (code : Nat) (profile : Profile) :
    profileOf code = some profile ∧ profile ≠ .evacuation ↔
      (profile = .standard ∧ code = 0) ∨ (profile = .stepFree ∧ code = 1) := by
  unfold profileOf
  split <;> cases profile <;> simp_all

theorem routeQueryOf_eq_some (p : List Byte) (q : Query) : routeQueryOf p = some q ↔
    ∃ target profile, targetOf (byteAt p 0) (wordAt p 1) = some target ∧ profileOf (byteAt p 3) = some profile
      ∧ routeGood target profile (wordOrNone p 4) = true ∧ q = .route target profile (wordOrNone p 4) := by
  unfold routeQueryOf
  cases targetOf (byteAt p 0) (wordAt p 1) with
  | none => simp
  | some target =>
    cases profileOf (byteAt p 3) with
    | none => simp
    | some profile => simp [@eq_comm _ q]

/-- The number of a target lies in its range. -/
def TargetInRange : Target → Prop
  | .listing n => 1 ≤ n ∧ n ≤ 1023
  | .node n => n ≤ 2047
  | .amenity c => c ≤ 15

theorem routeGood_iff (target : Target) (profile : Profile) (origin : Option Nat) :
    routeGood target profile origin = true ↔
      TargetInRange target ∧ profile ≠ .evacuation ∧ withinOr 2047 origin = true := by
  cases target <;> simp [routeGood, TargetInRange, and_assoc]

theorem queryCarried_route_iff (p : List Byte) (target : Target) (profile : Profile) (origin : Option Nat) :
    QueryCarried .route p (.route target profile origin) ↔
      ((byteAt p 0, wordAt p 1) = targetFields target ∧ TargetInRange target)
      ∧ ((profile = .standard ∧ byteAt p 3 = 0) ∨ (profile = .stepFree ∧ byteAt p 3 = 1))
      ∧ wordAt p 4 = origin.getD 65535 ∧ ∀ n, origin = some n → n ≤ 2047 := by
  cases target <;> simp [QueryCarried, targetFields, TargetInRange, and_assoc]

theorem routeQueryOf_eq_some_iff (p : List Byte) (q : Query) : routeQueryOf p = some q ↔ QueryCarried .route p q := by
  rw [routeQueryOf_eq_some]
  cases q with
  | find l | browse l => simp [QueryCarried]
  | route target profile origin =>
    rw [queryCarried_route_iff, ← wordOrNone_eq_iff (by decide), ← profileOf_eq_some_iff, ← targetOf_eq_some_iff]
    constructor
    · rintro ⟨target, profile, ht, hp, good, h⟩
      obtain ⟨rfl, rfl, rfl⟩ := Query.route.inj h
      obtain ⟨range, kept, within⟩ := (routeGood_iff _ _ _).mp good
      exact ⟨⟨ht, range⟩, ⟨hp, kept⟩, rfl, within⟩
    · rintro ⟨⟨ht, range⟩, ⟨hp, kept⟩, rfl, within⟩
      exact ⟨target, profile, ht, hp, (routeGood_iff _ _ _).mpr ⟨range, kept, within⟩, rfl⟩

end Sys2Proof.Proofs
end

section
/-! A request of a station in service (R165, R171): the part as the reply that carries it finds it, what a request may
change from there on, and the slot it reserves. -/

namespace Sys2Proof.Proofs
open Sys2Proof.Machine Sys2Proof.Safety Sys2Proof.Laws

/-! ### What a request of a station may change -/

/-- From `s` to `t` nothing has changed but the record of station `a`, the query table and the engines. -/
structure RequestFrame (a : Addr) (s t : State) : Prop where
  stations : sameStationsBut a s t
  rest : sameButQueries s t

theorem RequestFrame.refl (a : Addr) (s : State) : RequestFrame a s s :=
  ⟨fun _ _ => rfl, by simp [sameButQueries, sameRecords]⟩

theorem RequestFrame.trans {a : Addr} {s t u : State} (first : RequestFrame a s t) (second : RequestFrame a t u) :
    RequestFrame a s u := by
  obtain ⟨stations₁, rest₁⟩ := first
  obtain ⟨stations₂, rest₂⟩ := second
  exact ⟨fun b hb => (stations₂ b hb).trans (stations₁ b hb), by simp_all [sameButQueries, sameRecords]⟩

theorem requestFrame_updateStation (a : Addr) (f : Station → Station) (s : State) :
    RequestFrame a s (updateStation a f s) :=
  ⟨fun _ hb => stationAt_updateStation_other s f hb, by simp [sameButQueries, sameRecords]⟩

theorem requestFrame_freeEntry (e : QueryEntry) (s : State) : RequestFrame e.addr s (freeEntry e s) :=
  ⟨fun _ hb => stationAt_updateStation_other s _ hb, by simp [sameButQueries, sameRecords]⟩

theorem requestFrame_admitEntry (a : Addr) (e : QueryEntry) (s : State) : RequestFrame a s (admitEntry e s) :=
  ⟨fun _ _ => by simp [admitEntry, stationAt], by simp [admitEntry, sameButQueries, sameRecords]⟩

/-- The trunk, the attention flags and the records are as they were when the request came. -/
theorem sameButRequest_of_frame {k : TrunkNo} {a : Addr} {flags : AttnFlags} {s v t : State}
    (before : sameButRequest k a flags s v) (after : RequestFrame a v t) : sameButRequest k a flags s t := by
  obtain ⟨stations, rest⟩ := after
  obtain ⟨stations', rest'⟩ := before
  have trunk (u : TrunkNo) : trunkAt t u = trunkAt v u := by simp [trunkAt, rest]
  exact ⟨fun b hb => (stations b hb).trans (stations' b hb), by simp_all [sameRecords, sameTrunksBut]⟩

/-! ### The reply that carries a request (R165) -/

/-- `v` is `s` when the reply with a request of station `a` has been taken on trunk `k` and the station is awake, before
the request itself acts. -/
structure Roused (k : TrunkNo) (a : Addr) (s v : State) : Prop where
  station : stationAt v a = awake (stationAt s a)
  same : sameButRequest k a (changeFlag .enabled (stationAt s a)) s v
  qt : v.qt = s.qt
  re : v.re = s.re
  fe : v.fe = s.fe

/-- A command whose meaning is a good request other than SLEEP. -/
theorem exec_request {c : Instr} {k : TrunkNo} {d : Nat} {x : Exchange} {tag : Tag} {type : RequestType}
    {p : List Byte} {s : State} (meaning : exec c s = live (takeContent k d (requestOf type tag p)) s)
    (h : answering k d x s) (hs : inService (stationAt s x.station) = true) (hp : paramsFit type p = true)
    (hn : type ≠ .sleep) :
    ∃ v, Roused k x.station s v ∧ exec c s = .next (takeRequest x.station tag type p v) := by
  obtain ⟨v, takes, station, same, qt, re, fe⟩ := takeContent_awake s (tag := tag) h hs hp hn
  exact ⟨v, ⟨station, same, qt, re, fe⟩, by rw [meaning, live_running _ h.1, takes]⟩

/-- The part before the request acts differs from the part before the reply in the link and the flags alone. -/
theorem Roused.eq {k : TrunkNo} {a : Addr} {s v : State} (h : Roused k a s v) :
    v = { s with kl := v.kl, ep := v.ep } := by
  obtain ⟨-, ⟨-, records, hec, heu, -⟩, hqt, hre, hfe⟩ := h
  obtain ⟨service, reset, config, ds, wg, lm, cs, pending⟩ := records
  cases v
  simp_all

/-! ### The slot of a request (R171) -/

/-- A message written into the slot just reserved. -/
theorem stationAt_refuseSlot_reserved {a : Addr} {v : State}
    (below : ∀ y ∈ (stationAt v a).queue, y.place < (stationAt v a).nextPlace) (tag : Tag) (reason : LinkReason) :
    stationAt (refuseSlot a (stationAt v a).nextPlace tag reason (updateStation a (appendSlot none) v)) a =
      appendSlot (some (tag, .refused reason)) (stationAt v a) := by
  rw [refuseSlot, answerSlot, stationAt_updateStation_same, stationAt_updateStation_same,
    fillSlot_appendSlot below]

/-! ### A station that is polled, for the witnesses -/

/-- The exchange of a POLL to station 0.00. -/
def polledExchange : Exchange := { station := 0, probe := false, void := false }

/-- The part in SERVICE after a reset, station 0.00 DORMANT with a POLL to it out and these live entries. -/
def polledDormant (entries : List QueryEntry) : State :=
  updateTrunk 0 (fun k => { k with exchange := some polledExchange })
    (updateStation 0 (fun st => { st with state := .dormant })
      { State.reset with service := .service, qt := { entries := entries } })

theorem stationAt_polledDormant (entries : List QueryEntry) (a : Addr) :
    stationAt (polledDormant entries) a =
      if a = 0 then { Station.initial with state := .dormant } else Station.initial := by
  have initial (b : Addr) :
      stationAt { State.reset with service := .service, qt := { entries := entries } } b = Station.initial := by
    simp [stationAt, State.reset]
  rw [polledDormant, stationAt_updateTrunk, stationAt_updateStation, initial]

theorem answering_polledDormant (entries : List QueryEntry) : answering 0 64 polledExchange (polledDormant entries) :=
  ⟨rfl, le_refl _, by simp [polledDormant], rfl, rfl, rfl⟩

theorem inService_polledDormant (entries : List QueryEntry) :
    inService (stationAt (polledDormant entries) polledExchange.station) = true := by
  rw [stationAt_polledDormant]; rfl

theorem queuesInv_polledDormant : QueuesInv (polledDormant []) := by
  refine ⟨fun a => ?_, fun e he => nomatch he⟩
  have empty : (stationAt (polledDormant []) a).queue = [] := by
    rw [stationAt_polledDormant]
    split <;> rfl
  constructor <;> simp [empty]

end Sys2Proof.Proofs
end

section
/-! RELEASE (R116). -/

namespace Sys2Proof.Proofs
open Sys2Proof.Machine Sys2Proof.Safety Sys2Proof.Laws

theorem releaseEntry_ready {a : Addr} {tag : Tag} {v : State} {e : QueryEntry} {hold : Nat}
    (found : findEntry v.qt a tag = some e) (ready : e.state = .ready hold) : releaseEntry a tag v = freeEntry e v := by
  simp [releaseEntry, found, ready]

/-- Whether the station has no entry with that tag or one in another state. -/
theorem releaseEntry_not_ready {a : Addr} {tag : Tag} {v : State}
    (h : ∀ e hold, findEntry v.qt a tag = some e → e.state ≠ .ready hold) : releaseEntry a tag v = v := by
  unfold releaseEntry
  cases found : findEntry v.qt a tag with
  | none => rfl
  | some e =>
    cases state : e.state with
    | ready hold => exact absurd state (h e hold found)
    | queued | working | halting => simp only [state]

/-- A RELEASE frees its READY entry or does nothing. -/
theorem releaseEntry_cases (a : Addr) (tag : Tag) (v : State) :
    (∃ e hold, findEntry v.qt a tag = some e ∧ e.state = .ready hold ∧ releaseEntry a tag v = freeEntry e v)
      ∨ releaseEntry a tag v = v := by
  by_cases h : ∃ e hold, findEntry v.qt a tag = some e ∧ e.state = .ready hold
  · obtain ⟨e, hold, found, ready⟩ := h
    exact .inl ⟨e, hold, found, ready, releaseEntry_ready found ready⟩
  · exact .inr (releaseEntry_not_ready fun e hold found ready => h ⟨e, hold, found, ready⟩)

theorem releaseEntry_frame (a : Addr) (tag : Tag) (v : State) : RequestFrame a v (releaseEntry a tag v)
    ∧ (releaseEntry a tag v).re = v.re ∧ (releaseEntry a tag v).fe = v.fe := by
  rcases releaseEntry_cases a tag v with ⟨e, hold, found, -, frees⟩ | kept
  · obtain ⟨-, rfl, -⟩ := findEntry_some found
    rw [frees]
    exact ⟨requestFrame_freeEntry e v, by simp, by simp⟩
  · rw [kept]
    exact ⟨.refl a v, rfl, rfl⟩

/-- Settles O54, by whether the station has a READY entry with the tag. -/
theorem readyEntryReleased : Obligations.ReadyEntryReleased := by
  intro k d tag x s answers serving a st
  obtain ⟨v, ⟨station, same, qt, re, fe⟩, takes⟩ :=
    exec_request (c := .releaseRequest k d tag []) (type := .release) rfl answers serving rfl (by decide)
  obtain ⟨frame, re', fe'⟩ := releaseEntry_frame a tag v
  refine ⟨releaseEntry a tag v, takes, sameButRequest_of_frame same frame, re'.trans re, fe'.trans fe,
    fun notReady => ?_, fun e hold found ready => ?_⟩
  · rw [releaseEntry_not_ready (qt ▸ notReady)]
    exact ⟨station, qt⟩
  · obtain ⟨-, addr, hasTag⟩ := findEntry_some found
    rw [releaseEntry_ready (qt ▸ found) ready, freeEntry, addr, hasTag]
    constructor
    · exact (stationAt_updateStation_same v a _).trans (congrArg _ station)
    · rw [dropEntry_qt, updateStation_qt, qt]
      rfl

/-- A find answer that holds no results, READY for station 0.00 with tag 3. -/
def readyFind : QueryEntry :=
  { addr := 0, tag := 3, query := .find { typed := some [12], category := none, floor := none, openOnly := false }
    state := .ready 9, epoch := some 0
    answer := some (.find { tag := 3, browse := false, epoch := 0, total := 0, returned := 0, pageCount := 0 } [])
    slot := 0, cancelSlot := none }

/-- The settled statement at a DORMANT station with one READY entry: its tag frees it, and another tag leaves it. -/
theorem witness_readyEntryReleased_readyFind :
    (∃ t, exec (.releaseRequest 0 64 3 []) (polledDormant [readyFind]) = .next t ∧ t.qt.entries = [])
    ∧ ∃ t, exec (.releaseRequest 0 64 4 []) (polledDormant [readyFind]) = .next t ∧ t.qt.entries = [readyFind] := by
  constructor
  · obtain ⟨t, takes, -, -, -, -, frees⟩ := readyEntryReleased 0 64 3 polledExchange (polledDormant [readyFind])
      (answering_polledDormant _) (inService_polledDormant _)
    exact ⟨t, takes, (frees readyFind 9 rfl rfl).2⟩
  · obtain ⟨t, takes, -, -, -, keeps, -⟩ := readyEntryReleased 0 64 4 polledExchange (polledDormant [readyFind])
      (answering_polledDormant _) (inService_polledDormant _)
    have absent : findEntry (polledDormant [readyFind]).qt 0 4 = none := rfl
    obtain ⟨-, kept⟩ := keeps fun e hold found => nomatch absent.symm.trans found
    exact ⟨t, takes, by rw [kept]; rfl⟩

end Sys2Proof.Proofs
end

section
/-! Admission of a FIND, BROWSE or ROUTE (R106 to R110): the checks in their order, the entry that passes them, and what
the arbiters leave of the live entries whatever their tags. -/

namespace Sys2Proof.Proofs
open Sys2Proof.Machine Sys2Proof.Safety Sys2Proof.Laws

/-! ### The checks of R106 -/

theorem isSome_findEntry_iff (qt : QueryTable) (a : Addr) (tag : Tag) :
    (findEntry qt a tag).isSome = true ↔ ∃ e ∈ qt.entries, e.addr = a ∧ e.tag = tag := by
  simp [findEntry, isEntry]

theorem amenityNodes_isEmpty_iff (wg : Graph) (cls : Nat) :
    (amenityNodes wg cls).isEmpty = true ↔ ∀ x ∈ wg.nodes, x.2.kind ≠ .amenity cls := by
  simp [amenityNodes]

/-- Check 6 holds of a ROUTE whose target is not there. -/
theorem targetMissing_iff (s : State) (q : Query) : targetMissing s q = true ↔
    ∃ target profile origin, some q = some (.route target profile origin) ∧
      ((∃ n, target = .listing n ∧ tableGet s.ds.listings n = none)
        ∨ (∃ n, target = .node n ∧ tableGet s.wg.nodes n = none)
        ∨ ∃ c, target = .amenity c ∧ ∀ x ∈ s.wg.nodes, x.2.kind ≠ .amenity c) := by
  cases q with
  | find l | browse l => simp [targetMissing]
  | route target profile origin =>
    cases target with
    | listing n | node n => simp [targetMissing, inUse]
    | amenity cls => rw [targetMissing, amenityNodes_isEmpty_iff]; simp

/-- Check 7 holds of a ROUTE without an origin from a station without a home. -/
theorem originMissing_iff (s : State) (a : Addr) (q : Query) : originMissing s a q = true ↔
    ∃ target profile, some q = some (.route target profile none) ∧ s.wg.homes[a] = none := by
  cases q with
  | find l | browse l => simp [originMissing]
  | route target profile origin => cases origin <;> simp [originMissing]

/-- The reason with which admission refuses, if it does; `query` is none when the parameters fail R107. -/
def refusalOf (s : State) (a : Addr) (tag : Tag) (query : Option Query) : Option LinkReason :=
  if s.service ≠ .service then some .notInService
  else query.elim (some .badRequest) (admissionRefusal s a tag)

/-- One check of a chain. -/
theorem check_eq_some_iff {c : Prop} [Decidable c] {r reason : LinkReason} {later : Option LinkReason} :
    (if c then some r else later) = some reason ↔ (c ∧ r = reason) ∨ (¬c ∧ later = some reason) := by
  split <;> simp [*]

/-- The model's chain of checks finds the first refusal. -/
theorem refusalOf_eq_some_iff (s : State) (a : Addr) (tag : Tag) (query : Option Query) (reason : LinkReason) :
    refusalOf s a tag query = some reason ↔ firstRefusal s a tag query reason := by
  rw [refusalOf, check_eq_some_iff]
  cases query with
  | none => cases reason <;> simp [firstRefusal]
  | some q =>
    simp only [Option.elim_some, admissionRefusal, check_eq_some_iff, firstRefusal, ← isSome_findEntry_iff,
      ← targetMissing_iff, ← originMissing_iff]
    cases reason <;> simp

/-- The checks read the query table, the two stores and the service state alone. -/
theorem refusalOf_congr {s v : State} (service : v.service = s.service) (qt : v.qt = s.qt) (ds : v.ds = s.ds)
    (wg : v.wg = s.wg) (a : Addr) (tag : Tag) (query : Option Query) :
    refusalOf v a tag query = refusalOf s a tag query := by
  have target (q : Query) : targetMissing v q = targetMissing s q := by
    rw [Bool.eq_iff_iff, targetMissing_iff, targetMissing_iff, ds, wg]
  have origin (q : Query) : originMissing v a q = originMissing s a q := by
    rw [Bool.eq_iff_iff, originMissing_iff, originMissing_iff, wg]
  have checks : admissionRefusal v a tag = admissionRefusal s a tag := by
    funext q
    simp only [admissionRefusal, qt, target, origin]
  rw [refusalOf, refusalOf, service, checks]

theorem admission_refused {v : State} {a : Addr} {tag : Tag} {query : Option Query} {reason : LinkReason}
    (refused : refusalOf v a tag query = some reason) (place : Nat) :
    admission a tag query place v = refuseSlot a place tag reason v := by
  unfold refusalOf at refused
  unfold admission
  split at refused
  next outside =>
    obtain rfl := Option.some.inj refused
    exact if_pos outside
  next inside =>
    rw [if_neg inside]
    cases query with
    | none =>
      obtain rfl := Option.some.inj refused
      rfl
    | some q =>
      rw [Option.elim_some] at refused
      simp only [refused]

theorem admission_admitted {v : State} {a : Addr} {tag : Tag} {q : Query}
    (admitted : refusalOf v a tag (some q) = none) (place : Nat) :
    admission a tag (some q) place v = admitEntry (newEntry a tag q place) v := by
  unfold refusalOf at admitted
  unfold admission
  split at admitted
  next => cases admitted
  next inside =>
    rw [Option.elim_some] at admitted
    simp only [if_neg inside, admitted]

/-- Whichever check refuses, one message is written into the slot; else the entry is admitted. -/
theorem requestFrame_admission (a : Addr) (tag : Tag) (query : Option Query) (place : Nat) (v : State) :
    RequestFrame a v (admission a tag query place v) := by
  unfold admission
  split
  · exact requestFrame_updateStation a _ v
  · split
    · exact requestFrame_updateStation a _ v
    · split
      · exact requestFrame_updateStation a _ v
      · exact requestFrame_admitEntry a _ v

/-! ### The grants, whatever the tags (R110) -/

/-- Entries of which some have been granted and the others are as they were. -/
def SomeGranted (s : State) (before after : List QueryEntry) : Prop :=
  ∃ chosen : QueryEntry → Bool, after = before.map fun x => if chosen x then granted s x else x

theorem SomeGranted.refl (s : State) (entries : List QueryEntry) : SomeGranted s entries entries :=
  ⟨fun _ => false, by simp⟩

theorem SomeGranted.trans {s : State} {l₁ l₂ l₃ : List QueryEntry} (first : SomeGranted s l₁ l₂)
    (second : SomeGranted s l₂ l₃) : SomeGranted s l₁ l₃ := by
  obtain ⟨chosen₁, rfl⟩ := first
  obtain ⟨chosen₂, rfl⟩ := second
  refine ⟨fun x => chosen₁ x || chosen₂ x, ?_⟩
  rw [List.map_map]
  refine List.map_congr_left fun x _ => ?_
  cases h : chosen₁ x <;> simp [h, granted]

theorem someGranted_grantRoute (s : State) : SomeGranted s s.qt.entries (grantRoute s).qt.entries := by
  unfold grantRoute
  split
  · split
    · exact .refl _ _
    · split
      · exact ⟨_, rfl⟩
      · exact .refl _ _
      · exact .refl _ _
  · exact .refl _ _

theorem someGranted_grantFind (s : State) : SomeGranted s s.qt.entries (grantFind s).qt.entries := by
  unfold grantFind
  split
  · split
    · exact .refl _ _
    · split
      · exact .refl _ _
      · exact ⟨_, rfl⟩
  · exact .refl _ _

theorem someGranted_grant (s : State) : SomeGranted s s.qt.entries (grant s).qt.entries := by
  have find := someGranted_grantFind (grantRoute s)
  have same : granted (grantRoute s) = granted s := by funext e; simp [granted]
  rw [SomeGranted, same] at find
  exact (someGranted_grantRoute s).trans find

/-- An admitted entry stands at the tail, where its grant leaves it (R105, R110). -/
theorem admitEntry_entries (e : QueryEntry) (v : State) :
    (admitEntry e v).qt.entries.length = v.qt.entries.length + 1
      ∧ ∃ f, (admitEntry e v).qt.entries[v.qt.entries.length]? = some f ∧ (f = e ∨ f = granted v e) := by
  obtain ⟨chosen, entries⟩ := someGranted_grant { v with qt := { entries := v.qt.entries ++ [e] } }
  rw [admitEntry, entries]
  refine ⟨by simp, if chosen e then granted v e else e, by simp [granted], ?_⟩
  cases chosen e <;> simp

@[simp] theorem stationAt_admitEntry (e : QueryEntry) (v : State) (b : Addr) :
    stationAt (admitEntry e v) b = stationAt v b := by
  simp [admitEntry, stationAt]

/-- A tag that is not held may be admitted. -/
theorem tagsDistinct_append {entries : List QueryEntry} {e : QueryEntry} (distinct : TagsDistinct entries)
    (free : ¬∃ f ∈ entries, f.addr = e.addr ∧ f.tag = e.tag) : TagsDistinct (entries ++ [e]) := by
  simp only [TagsDistinct, List.pairwise_append, List.pairwise_singleton, List.mem_singleton, forall_eq, true_and]
  exact ⟨distinct, fun f hf same => free ⟨f, hf, same⟩⟩

/-- What passes every check has a tag that its station does not hold. -/
theorem tag_free_of_admitted {s : State} {a : Addr} {tag : Tag} {q : Query}
    (admitted : refusalOf s a tag (some q) = none) (service : s.service = .service) :
    ¬∃ e ∈ s.qt.entries, e.addr = a ∧ e.tag = tag := by
  intro held
  have refused : refusalOf s a tag (some q) = some .tagInUse :=
    (refusalOf_eq_some_iff s a tag _ _).mpr ⟨service, by simp, held⟩
  simp [admitted] at refused

/-! ### The three requests -/

/-- The requests that ask for admission, when they fit their kind, each with the query that its parameters read as. -/
inductive AsksFor (k : TrunkNo) (d : Nat) (tag : Tag) (p : List Byte) : Instr → Option Query → Prop
  | find : paramsFit .find p = true → AsksFor k d tag p (.findRequest k d tag p) (findQueryOf p)
  | browse : paramsFit .browse p = true → AsksFor k d tag p (.browseRequest k d tag p) (browseQueryOf p)
  | route : paramsFit .route p = true → AsksFor k d tag p (.routeRequest k d tag p) (routeQueryOf p)

/-- Each asks for admission with its query in the slot it reserves. -/
theorem exec_asksFor {k : TrunkNo} {d : Nat} {tag : Tag} {p : List Byte} {c : Instr} {query : Option Query}
    {x : Exchange} {s : State} (asks : AsksFor k d tag p c query) (answers : answering k d x s)
    (serving : inService (stationAt s x.station) = true) :
    ∃ v, Roused k x.station s v ∧ exec c s = .next (withSlot x.station (admission x.station tag query) v) := by
  cases asks with
  | find fits => exact exec_request (type := .find) rfl answers serving fits (by decide)
  | browse fits => exact exec_request (type := .browse) rfl answers serving fits (by decide)
  | route fits => exact exec_request (type := .route) rfl answers serving fits (by decide)

theorem requestFrame_withSlot_admission (a : Addr) (tag : Tag) (query : Option Query) (v : State) :
    RequestFrame a v (withSlot a (admission a tag query) v) := by
  unfold withSlot
  split
  · exact requestFrame_updateStation a _ v
  · exact (requestFrame_updateStation a _ v).trans (requestFrame_admission a tag query _ _)

section
variable {k : TrunkNo} {a : Addr} {s v : State} (roused : Roused k a s v) (tag : Tag)
include roused

/-- R171: with no slot left the request is counted as an overrun and nothing else. -/
theorem withSlot_overrun (f : Nat → State → State) (full : 4 ≤ (awake (stationAt s a)).queue.length) :
    let t := withSlot a f v
    stationAt t a = countOverrun (awake (stationAt s a)) ∧ t.qt = s.qt ∧ t.re = s.re ∧ t.fe = s.fe := by
  obtain ⟨station, -, qt, re, fe⟩ := roused
  rw [withSlot_full v f (station ▸ full)]
  exact ⟨by rw [stationAt_updateStation_same, station], qt, re, fe⟩

/-- The request finds the records as the reply found them. -/
theorem refusalOf_reserved (query : Option Query) :
    refusalOf (updateStation a (appendSlot none) v) a tag query = refusalOf s a tag query := by
  obtain ⟨-, same, qt, -, -⟩ := roused
  obtain ⟨-, records, -⟩ := same
  obtain ⟨service, -, -, ds, wg, -⟩ := records
  exact refusalOf_congr service qt ds wg a tag query

theorem withSlot_refused {query : Option Query} {reason : LinkReason} (slots : SlotsInv (stationAt s a))
    (room : (awake (stationAt s a)).queue.length < 4) (refused : refusalOf s a tag query = some reason) :
    let t := withSlot a (admission a tag query) v
    stationAt t a = appendSlot (some (tag, .refused reason)) (awake (stationAt s a))
      ∧ t.qt = s.qt ∧ t.re = s.re ∧ t.fe = s.fe := by
  rw [withSlot_room v _ (roused.station ▸ room),
    admission_refused ((refusalOf_reserved roused tag query).trans refused)]
  obtain ⟨station, -, qt, re, fe⟩ := roused
  refine ⟨?_, qt, re, fe⟩
  rw [stationAt_refuseSlot_reserved (station ▸ awake_below slots), station]

theorem withSlot_admitted {q : Query} (room : (awake (stationAt s a)).queue.length < 4)
    (admitted : refusalOf s a tag (some q) = none) :
    withSlot a (admission a tag (some q)) v =
      admitEntry (newEntry a tag q (awake (stationAt s a)).nextPlace) (updateStation a (appendSlot none) v) := by
  rw [withSlot_room v _ (roused.station ▸ room),
    admission_admitted ((refusalOf_reserved roused tag (some q)).trans admitted), roused.station]

/-- The arbiters grant on the records as the reply found them, with the entry at the tail. -/
theorem granted_admitEntry {e : QueryEntry} (distinct : TagsDistinct (s.qt.entries ++ [e])) :
    let t := admitEntry e (updateStation a (appendSlot none) v)
    Granted { s with qt := { entries := s.qt.entries ++ [e] }, kl := t.kl, ep := t.ep } t := by
  intro t
  have before : { updateStation a (appendSlot none) v with qt := { entries := s.qt.entries ++ [e] } } =
      { s with qt := { entries := s.qt.entries ++ [e] }
               kl := (updateStation a (appendSlot none) v).kl, ep := v.ep } := by
    rw [roused.eq]
    rfl
  have result : t = grant { updateStation a (appendSlot none) v with qt := { entries := s.qt.entries ++ [e] } } := by
    rw [← roused.qt]
    rfl
  have kl : t.kl = (updateStation a (appendSlot none) v).kl := by simp [result]
  have ep : t.ep = v.ep := by simp [result]
  rw [kl, ep, ← before, result]
  exact grant_granted distinct

end

/-- Settles O52. Bytes and queries correspond by the three equivalences on parameters; a request is an overrun or has
its slot, and then the chain of checks either tells the first refusal or admits the entry to the arbiters. -/
theorem requestsAdmittedOrRefused : Obligations.RequestsAdmittedOrRefused := by
  refine ⟨fun p => ⟨fun q => ⟨findQueryOf_eq_some_iff p q, browseQueryOf_eq_some_iff p q, routeQueryOf_eq_some_iff p q⟩,
    paramsFit_find_iff p, paramsFit_browse_iff p, paramsFit_route_iff p⟩, ?_⟩
  intro c query k d tag p x s request answers queues serving a st flags
  have asks : AsksFor k d tag p c query := by
    rcases request with ⟨rfl, rfl, fits⟩ | ⟨rfl, rfl, fits⟩ | ⟨rfl, rfl, fits⟩
    · exact .find fits
    · exact .browse fits
    · exact .route fits
  obtain ⟨v, roused, takes⟩ := exec_asksFor asks answers serving
  have same := sameButRequest_of_frame roused.same (requestFrame_withSlot_admission a tag query v)
  refine ⟨fun full => ⟨_, takes, same, withSlot_overrun roused _ full⟩,
    fun room => ⟨_, takes, same, fun reason refused => ?_, fun q isQuery service passes => ?_⟩⟩
  · exact withSlot_refused roused tag (queues.slots a) room ((refusalOf_eq_some_iff ..).mpr refused)
  · subst isQuery
    have admitted : refusalOf s a tag (some q) = none :=
      Option.eq_none_iff_forall_ne_some.mpr fun reason h => passes reason ((refusalOf_eq_some_iff ..).mp h)
    rw [withSlot_admitted roused tag room admitted]
    obtain ⟨length, f, tail, grant⟩ := admitEntry_entries (newEntry a tag q st.nextPlace)
      (updateStation a (appendSlot none) v)
    rw [updateStation_qt, roused.qt] at length tail
    refine ⟨?_, length, ⟨f, tail, ?_⟩, fun table => ?_⟩
    · rw [stationAt_admitEntry, stationAt_updateStation_same, roused.station]
    · rcases grant with rfl | rfl <;> simp [newEntry, granted]
    · exact granted_admitEntry roused (tagsDistinct_append table.distinct (tag_free_of_admitted admitted service))

/-- A BROWSE of category 5. -/
def browseQuery : Query := .browse { typed := none, category := some 5, floor := none, openOnly := false }

/-- The settled statement at a DORMANT station with an empty table: a good BROWSE is admitted, and one of category 64 is
refused BAD_REQUEST. -/
theorem witness_requestsAdmittedOrRefused_polledDormant :
    (∃ t, exec (.browseRequest 0 64 3 [0, 5, 0]) (polledDormant []) = .next t ∧ t.qt.entries.length = 1)
    ∧ ∃ t, exec (.browseRequest 0 64 3 [0, 64, 0]) (polledDormant []) = .next t ∧ t.qt.entries = []
      ∧ (stationAt t 0).queue = [{ place := 0, content := some (3, .refused .badRequest), inFlight := false }] := by
  obtain ⟨-, acts⟩ := requestsAdmittedOrRefused
  have room : (awake (stationAt (polledDormant []) 0)).queue.length < 4 := by
    rw [stationAt_polledDormant]
    decide
  constructor
  · obtain ⟨-, found⟩ := acts _ (some browseQuery) 0 64 3 [0, 5, 0] polledExchange (polledDormant [])
      (.inr (.inl ⟨rfl, rfl, rfl⟩)) (answering_polledDormant []) queuesInv_polledDormant (inService_polledDormant [])
    obtain ⟨t, takes, -, -, admits⟩ := found room
    have passes : refusalOf (polledDormant []) 0 3 (some browseQuery) = none := rfl
    obtain ⟨-, length, -⟩ := admits browseQuery rfl rfl fun reason refused =>
      nomatch passes.symm.trans ((refusalOf_eq_some_iff ..).mpr refused)
    exact ⟨t, takes, length⟩
  · obtain ⟨-, found⟩ := acts _ none 0 64 3 [0, 64, 0] polledExchange (polledDormant [])
      (.inr (.inl ⟨rfl, rfl, rfl⟩)) (answering_polledDormant []) queuesInv_polledDormant (inService_polledDormant [])
    obtain ⟨t, takes, -, refuses, -⟩ := found room
    obtain ⟨station, qt, -, -⟩ := refuses .badRequest ⟨rfl, rfl⟩
    rw [stationAt_polledDormant] at station
    exact ⟨t, takes, by rw [qt]; rfl, (congrArg Station.queue station).trans rfl⟩

end Sys2Proof.Proofs
end

section
/-! What keeps the invariants of the part: the relation of two states of which the second meets every invariant that the
first meets, and one rule for each block of records that a step may change. -/

namespace Sys2Proof.Proofs
open Sys2Proof.Machine Sys2Proof.Safety Sys2Proof.Laws

/-- Each invariant that `s` meets is met by `t`. A field that is left out holds because nothing that its invariant reads
has changed. -/
structure Keeps (s t : State) : Prop where
  engine : EngineInv s → EngineInv t := by exact fun h => { h with }
  table : TableInv s → TableInv t := by exact fun h => { h with }
  queues : QueuesInv s → QueuesInv t := by exact fun h => { h with }
  masks : MasksInv s → MasksInv t := by exact fun h => h
  load : LoadInv s → LoadInv t := by exact fun h => { h with }
  index : IndexInv s → IndexInv t := by exact fun h => { h with }
  graph : GraphInv s → GraphInv t := by exact fun h => { h with }
  frontiers : FrontiersInv s → FrontiersInv t := by exact fun h => { h with }
  stage : StageInv s → StageInv t := by exact fun h => { h with }

theorem Keeps.refl (s : State) : Keeps s s where

theorem Keeps.of_eq {s t : State} (h : t = s) : Keeps s t := h ▸ .refl s

theorem Keeps.trans {s t u : State} (first : Keeps s t) (second : Keeps t u) : Keeps s u where
  engine h := second.engine (first.engine h)
  table h := second.table (first.table h)
  queues h := second.queues (first.queues h)
  masks h := second.masks (first.masks h)
  load h := second.load (first.load h)
  index h := second.index (first.index h)
  graph h := second.graph (first.graph h)
  frontiers h := second.frontiers (first.frontiers h)
  stage h := second.stage (first.stage h)

theorem Keeps.ite {c : Prop} [Decidable c] {s t u : State} (pos : c → Keeps s t) (neg : ¬c → Keeps s u) :
    Keeps s (if c then t else u) := by
  split
  · exact pos ‹_›
  · exact neg ‹_›

theorem Keeps.whenever {c : Prop} [Decidable c] {f : State → State} {s : State} (h : c → Keeps s (f s)) :
    Keeps s (whenever c f s) := .ite h fun _ => .refl s

/-! ### Fields that no invariant reads -/

theorem keeps_port (s : State) (ep : EditPort) : Keeps s { s with ep := ep } where

theorem keeps_service (s : State) (x : Service) : Keeps s { s with service := x } where

theorem keeps_raiseFlag (f : AttnFlags) (s : State) : Keeps s (raiseFlag f s) where

theorem keeps_updateTrunk (t : TrunkNo) (f : Trunk → Trunk) (s : State) : Keeps s (updateTrunk t f s) where

theorem keeps_line (s : State) (asserted : Bool) (differing : Nat) :
    Keeps s { s with eu := { s.eu with asserted := asserted, differing := differing } } where

/-! ### Station records (R164, R170, R172) -/

/-- A station record that keeps what the invariants say of it. -/
structure StationKept (x y : Station) : Prop where
  slots : SlotsInv x → SlotsInv y := by exact fun h => { h with }
  places : x.nextPlace ≤ y.nextPlace := by exact Nat.le_refl _
  mask : MaskOk x → MaskOk y := by exact fun h => h

theorem StationKept.refl (x : Station) : StationKept x x where

theorem StationKept.trans {x y z : Station} (first : StationKept x y) (second : StationKept y z) : StationKept x z where
  slots h := second.slots (first.slots h)
  places := first.places.trans second.places
  mask h := second.mask (first.mask h)

theorem StationKept.ite {c : Prop} [Decidable c] {x y z : Station} (pos : c → StationKept x y)
    (neg : ¬c → StationKept x z) : StationKept x (if c then y else z) := by
  split
  · exact pos ‹_›
  · exact neg ‹_›

/-- Stations that each keep what the invariants say, in a part where nothing else has changed. -/
theorem keeps_stations {s : State} {v : Vector Station 96} (kept : ∀ a : Addr, StationKept (stationAt s a) v[a]) :
    Keeps s { s with kl := { s.kl with stations := v } } where
  queues h := ⟨fun a => (kept a).slots (h.slots a), fun e he => (h.entries e he).trans_le (kept e.addr).places⟩
  masks h a := (kept a).mask (h a)

theorem keeps_putStation {s : State} {a : Addr} {y : Station} (kept : StationKept (stationAt s a) y) :
    Keeps s (putStation a y s) := by
  refine keeps_stations fun b => ?_
  have : (s.kl.stations.set a.val y a.isLt)[b] = stationAt (putStation a y s) b := rfl
  rw [this]
  by_cases e : b = a
  · subst e; simpa using kept
  · rw [stationAt_putStation_other _ _ e]; exact .refl _

theorem keeps_updateStation {s : State} {a : Addr} {f : Station → Station}
    (kept : StationKept (stationAt s a) (f (stationAt s a))) : Keeps s (updateStation a f s) := keeps_putStation kept

theorem keeps_mapStations {s : State} {f : Addr → Station → Station}
    (kept : ∀ a, StationKept (stationAt s a) (f a (stationAt s a))) : Keeps s (mapStations f s) := by
  refine keeps_stations fun a => ?_
  have : (mapBank f s.kl.stations)[a] = stationAt (mapStations f s) a := rfl
  rw [this, stationAt_mapStations]
  exact kept a

/-! ### What the changes of one record keep -/

theorem stationKept_acknowledge (x : Station) : StationKept x (acknowledge x) where
  slots h :=
    { size := (List.length_filter_le _ _).trans h.size
      rising := h.rising.filter _
      below := below_acknowledge h
      single := by simp [acknowledge, List.filter_filter]
      filled := fun y hy => h.filled y (List.mem_of_mem_filter hy) }

theorem stationKept_countOverrun (x : Station) : StationKept x (countOverrun x) where

theorem stationKept_appendSlot {x : Station} (room : x.queue.length < 4) (content : Option (Tag × Downstream)) :
    StationKept x (appendSlot content x) where
  places := Nat.le_succ _
  slots h :=
    { size := by simpa [appendSlot] using room
      rising := by
        simp only [appendSlot, List.pairwise_append, List.pairwise_singleton, List.mem_singleton]
        exact ⟨h.rising, trivial, fun y hy z hz => hz ▸ h.below y hy⟩
      below := by
        simp only [appendSlot, List.mem_append, List.mem_singleton]
        rintro y (hy | rfl)
        · exact (h.below y hy).trans (Nat.lt_succ_self _)
        · exact Nat.lt_succ_self _
      single := by simpa [appendSlot] using h.single
      filled := by
        simp only [appendSlot, List.mem_append, List.mem_singleton]
        rintro y (hy | rfl) flying
        · exact h.filled y hy flying
        · simp at flying }

theorem stationKept_fillSlot (place : Nat) (tag : Tag) (m : Downstream) (x : Station) :
    StationKept x (fillSlot place tag m x) where
  slots h :=
    { size := by simpa [fillSlot] using h.size
      rising := by
        simp only [fillSlot, List.pairwise_map]
        refine h.rising.imp fun {y z} hyz => ?_
        split <;> split <;> exact hyz
      below := by
        simp only [fillSlot, List.mem_map]
        rintro _ ⟨y, hy, rfl⟩
        split <;> exact h.below y hy
      single := by
        have same : ∀ y : Slot, (if y.place = place then { y with content := some (tag, m) } else y).inFlight
            = y.inFlight := fun y => by split <;> rfl
        simpa [fillSlot, List.filter_map, Function.comp_def, same] using h.single
      filled := by
        simp only [fillSlot, List.mem_map]
        rintro _ ⟨y, hy, rfl⟩
        split
        · simp
        · exact h.filled y hy }

theorem stationKept_releaseSlot (place : Nat) (x : Station) : StationKept x (releaseSlot place x) where
  slots h :=
    { size := (List.length_filter_le _ _).trans h.size
      rising := h.rising.filter _
      below := fun y hy => h.below y (List.mem_of_mem_filter hy)
      single := ((List.filter_sublist.filter _).length_le).trans h.single
      filled := fun y hy => h.filled y (List.mem_of_mem_filter hy) }

theorem eq_of_length_le_one {α : Type} {l : List α} (h : l.length ≤ 1) {x y : α} (hx : x ∈ l) (hy : y ∈ l) : x = y := by
  match l, h with
  | [z], _ => rw [List.mem_singleton.1 hx, List.mem_singleton.1 hy]

/-- The slots of a queue have different places. -/
theorem eq_of_place {x : Station} (h : SlotsInv x) {y z : Slot} (hy : y ∈ x.queue) (hz : z ∈ x.queue)
    (e : y.place = z.place) : y = z := by
  have distinct : (x.queue.map Slot.place).Nodup := by
    rw [List.Nodup, List.pairwise_map]
    exact h.rising.imp fun {_ _} => Nat.ne_of_lt
  exact List.inj_on_of_nodup_map distinct hy hz e

/-- The slot a POLL carries stands in the queue and is filled, and none other is in flight. -/
theorem carriedSlot_spec {x : Station} {c : Slot} (h : SlotsInv x) (hc : carriedSlot x = some c) :
    c ∈ x.queue ∧ c.content.isSome = true ∧ ∀ y ∈ x.queue, y.inFlight = true → y = c := by
  unfold carriedSlot at hc
  split at hc
  · rename_i flying
    cases hc
    have mem := List.mem_of_find?_eq_some flying
    have fly : c.inFlight = true := by simpa using List.find?_some flying
    refine ⟨mem, h.filled c mem fly, fun y hy hyf => ?_⟩
    exact eq_of_length_le_one h.single (List.mem_filter.2 ⟨hy, hyf⟩) (List.mem_filter.2 ⟨mem, fly⟩)
  · rename_i none_flying
    refine ⟨List.mem_of_find?_eq_some hc, by simpa using List.find?_some hc, fun y hy hyf => ?_⟩
    exact absurd hyf (by simpa using List.find?_eq_none.1 none_flying y hy)

/-- Slots of different places, of which those that `p` names all have one place, hold at most one that it names. -/
theorem length_filter_le_one {q : List Slot} (rising : q.Pairwise fun y z => y.place < z.place) {p : Slot → Bool}
    {place : Nat} (only : ∀ y ∈ q, p y = true → y.place = place) : (q.filter p).length ≤ 1 := by
  have chosen := rising.filter p
  match hl : q.filter p with
  | [] => simp
  | [_] => simp
  | y :: z :: l =>
    rw [hl, List.pairwise_cons] at chosen
    have hy := List.mem_filter.1 (hl ▸ List.mem_cons_self : y ∈ q.filter p)
    have hz := List.mem_filter.1 (hl ▸ List.mem_cons_of_mem _ List.mem_cons_self : z ∈ q.filter p)
    have lt := chosen.1 z List.mem_cons_self
    rw [only y hy.1 hy.2, only z hz.1 hz.2] at lt
    exact absurd lt (Nat.lt_irrefl _)

theorem stationKept_markCarried (x : Station) : StationKept x (markCarried x) := by
  unfold markCarried
  split
  · rename_i c hc
    refine { slots := fun h => ?_ }
    obtain ⟨mem, filled, only⟩ := carriedSlot_spec h hc
    have rising : (x.queue.map fun y => if y.place = c.place then { y with inFlight := true } else y).Pairwise
        fun y z => y.place < z.place := by
      rw [List.pairwise_map]
      refine h.rising.imp fun {y z} hyz => ?_
      split <;> split <;> exact hyz
    exact
      { size := by simpa using h.size
        rising := rising
        below := by
          simp only [List.mem_map]
          rintro _ ⟨y, hy, rfl⟩
          split <;> exact h.below y hy
        single := length_filter_le_one rising (place := c.place) (by
          simp only [List.mem_map]
          rintro _ ⟨y, hy, rfl⟩
          split
          · exact fun _ => ‹_›
          · exact fun fly => by rw [only y hy fly])
        filled := by
          simp only [List.mem_map]
          rintro _ ⟨y, hy, rfl⟩
          split
          · exact fun _ => by rw [eq_of_place h hy mem ‹_›]; exact filled
          · exact h.filled y hy }
  · exact .refl x

theorem maskOk_of_zero {x : Station} (h : x.pendingMask = 0) : MaskOk x := by simp [MaskOk, h]

theorem stationKept_raiseAt (groups : Groups) (x : Station) : StationKept x (raiseAt groups x) := by
  unfold raiseAt
  split
  · rename_i h
    simp only [Bool.and_eq_true] at h
    refine { mask := fun ok => ⟨?_, fun out => ?_⟩ }
    · have within : x.pendingMask &&& x.subscription = x.pendingMask := ok.1
      show (x.pendingMask ||| (groups &&& x.subscription)) &&& x.subscription = _
      rw [BitVec.and_comm, BitVec.and_or_distrib_left, BitVec.and_comm x.subscription x.pendingMask, within,
        BitVec.and_comm x.subscription, BitVec.and_assoc, BitVec.and_self]
    · exact absurd ((show inService x = false from out) ▸ h.1) (by simp)
  · exact .refl x

/-- A record that goes to another state with nothing else of it changed that the invariants read. -/
theorem stationKept_state {x : Station} {new : StationState} {changed : Bool}
    (empty : MaskOk x → new ≠ .enabled → new ≠ .dormant → x.pendingMask = 0) :
    StationKept x { x with state := new, changed := changed } where
  mask ok := ⟨ok.1, fun out => by
    have : new ≠ .enabled ∧ new ≠ .dormant := by simpa [inService] using out
    exact empty ok this.1 this.2⟩

theorem stationKept_leftRecord (x : Station) : StationKept x (leftRecord x) where
  slots h := { size := by simp [leftRecord], rising := List.Pairwise.nil, below := by simp [leftRecord],
               single := by simp [leftRecord], filled := by simp [leftRecord] }
  mask _ := maskOk_of_zero rfl

theorem stationKept_enabled (x : Station) (changed : Bool) :
    StationKept x { enabledRecord x with state := .enabled, changed := changed } where
  mask _ := ⟨BitVec.and_self, fun out => by simp [inService] at out⟩

theorem stationKept_absentRecord (x : Station) : StationKept x (absentRecord x) := by
  unfold absentRecord
  split
  · exact .refl x
  · exact
      { slots := fun _ => { size := by simp, rising := List.Pairwise.nil, below := by simp, single := by simp,
                            filled := by simp }
        mask := fun _ => maskOk_of_zero rfl }

theorem stationKept_trunkResetRecord (x : Station) : StationKept x (trunkResetRecord x) := by
  unfold trunkResetRecord
  exact .ite (fun _ => .refl x) fun _ => (stationKept_absentRecord x).trans {}

theorem stationKept_frameTick (x : Station) : StationKept x (frameTick x) where

theorem stationKept_subscription (x : Station) (groups : Groups) :
    StationKept x { x with subscription := groups, pendingMask := x.pendingMask &&& groups } where
  mask ok := ⟨by show (x.pendingMask &&& groups) &&& groups = _; rw [BitVec.and_assoc, BitVec.and_self],
    fun out => by show x.pendingMask &&& groups = 0; rw [ok.2 out]; exact BitVec.zero_and⟩

theorem stationKept_seen (x : Station) (groups : Groups) :
    StationKept x { x with pendingMask := x.pendingMask &&& groups } where
  mask ok := ⟨by
      show (x.pendingMask &&& groups) &&& x.subscription = _
      rw [BitVec.and_assoc, BitVec.and_comm groups, ← BitVec.and_assoc]
      exact congrArg (· &&& groups) ok.1,
    fun out => by show x.pendingMask &&& groups = 0; rw [ok.2 out]; exact BitVec.zero_and⟩

theorem stationKept_refuseReady (e : QueryEntry) (x : Station) : StationKept x (refuseReady e x) := by
  unfold refuseReady
  refine .ite (fun _ => stationKept_fillSlot _ _ _ x) fun _ => .ite (fun _ => .refl x) fun room => ?_
  exact stationKept_appendSlot (by simpa [slotsFull] using room) _

/-! ### Changes of a station's state (R167) -/

theorem keeps_changeState {s : State} {a : Addr} {new : StationState}
    (empty : MaskOk (stationAt s a) → new ≠ .enabled → new ≠ .dormant → (stationAt s a).pendingMask = 0) :
    Keeps s (changeState a new s) := by
  unfold changeState
  exact .ite (fun _ => .refl s) fun _ =>
    (keeps_updateStation (f := fun st => { st with state := new, changed := true }) (stationKept_state empty)).trans
      (keeps_raiseFlag _ _)

theorem keeps_changeState_in {s : State} {a : Addr} {new : StationState} (h : new = .enabled ∨ new = .dormant) :
    Keeps s (changeState a new s) :=
  keeps_changeState fun _ h1 h2 => by rcases h with rfl | rfl <;> contradiction

/-- A station that is not in service has nothing pending. -/
theorem keeps_changeState_out {s : State} {a : Addr} {new : StationState} (h : inService (stationAt s a) = false) :
    Keeps s (changeState a new s) := keeps_changeState fun ok _ _ => ok.2 h

end Sys2Proof.Proofs
end

section
/-! What keeps the invariants of the query table and of the engines: entries freed or changed, an entry that its engine has
done with, an entry admitted, and the grants. -/

namespace Sys2Proof.Proofs
open Sys2Proof.Machine Sys2Proof.Safety Sys2Proof.Laws

/-! ### Entries freed and changed -/

/-- Each entry is freed or changed by `f`, and one that stays keeps its station, its tag, its query and its slot. -/
def SameKeys (f : QueryEntry → Option QueryEntry) : Prop :=
  ∀ e e', f e = some e' → e'.addr = e.addr ∧ e'.tag = e.tag ∧ e'.query = e.query ∧ e'.slot = e.slot

/-- An entry that is with its engine stays there, and no other comes to it. -/
def StaysBusy (f : QueryEntry → Option QueryEntry) (e : QueryEntry) : Prop :=
  (f e = none → busy e = false) ∧ ∀ e', f e = some e' → busy e' = busy e

/-- An entry that its engine has done with is freed or is no longer with it. -/
def NotBusy (f : QueryEntry → Option QueryEntry) (e : QueryEntry) : Prop := ∀ e', f e = some e' → busy e' = false

theorem liveCount_filterMap_le {f : QueryEntry → Option QueryEntry} (keys : SameKeys f) (l : List QueryEntry) (a : Addr) :
    liveCount { entries := l.filterMap f } a ≤ liveCount { entries := l } a := by
  unfold liveCount
  induction l with
  | nil => simp
  | cons e l ih =>
    cases hf : f e with
    | none =>
      simp only [List.filterMap_cons, hf, List.filter_cons]
      split
      · exact ih.trans (Nat.le_succ _)
      · exact ih
    | some e' =>
      simp only [List.filterMap_cons, hf, List.filter_cons, (keys e e' hf).1]
      split
      · exact Nat.succ_le_succ ih
      · exact ih

theorem tableInv_filterMap {s t : State} {f : QueryEntry → Option QueryEntry} (keys : SameKeys f)
    (entries : t.qt.entries = s.qt.entries.filterMap f) (h : TableInv s) : TableInv t where
  size := by rw [entries]; exact (List.length_filterMap_le _ _).trans h.size
  each a := by
    have qt : t.qt = { entries := s.qt.entries.filterMap f } := congrArg QueryTable.mk entries
    rw [qt]; exact (liveCount_filterMap_le keys _ a).trans (h.each a)
  distinct := by
    rw [entries]
    refine h.distinct.filterMap f fun e e' hne x hx y hy => ?_
    rw [(keys e x hx).1, (keys e x hx).2.1, (keys e' y hy).1, (keys e' y hy).2.1]
    exact hne

theorem queuesInv_filterMap {s t : State} {f : QueryEntry → Option QueryEntry} (keys : SameKeys f)
    (entries : t.qt.entries = s.qt.entries.filterMap f) (kl : t.kl = s.kl) (h : QueuesInv s) : QueuesInv t where
  slots a := by unfold stationAt; rw [kl]; exact h.slots a
  entries e' he' := by
    rw [entries] at he'
    obtain ⟨e, he, hf⟩ := List.mem_filterMap.1 he'
    obtain ⟨addr, -, -, slot⟩ := keys e e' hf
    rw [slot, addr]; unfold stationAt; rw [kl]
    exact h.entries e he

theorem isRoute_congr {e e' : QueryEntry} (h : e'.query = e.query) : isRoute e' = isRoute e := by
  unfold isRoute; rw [h]

theorem distinct_filterMap {f : QueryEntry → Option QueryEntry} (keys : SameKeys f) {l : List QueryEntry}
    (h : TagsDistinct l) : TagsDistinct (l.filterMap f) :=
  h.filterMap f fun e e' hne x hx y hy => by
    rw [(keys e x hx).1, (keys e x hx).2.1, (keys e' y hy).1, (keys e' y hy).2.1]; exact hne

/-- Entries that leave, none of them with its engine, and entries that change and stay where they are. -/
theorem keeps_queries {s : State} {f : QueryEntry → Option QueryEntry} (keys : SameKeys f)
    (stays : EngineInv s → ∀ e ∈ s.qt.entries, StaysBusy f e) :
    Keeps s { s with qt := { entries := s.qt.entries.filterMap f } } where
  table := tableInv_filterMap keys rfl
  queues := queuesInv_filterMap keys rfl rfl
  engine h :=
    { h with
      distinct := distinct_filterMap keys h.distinct
      route := fun e' he' hr hb => by
        obtain ⟨e, he, hf⟩ := List.mem_filterMap.1 he'
        obtain ⟨addr, tag, query, -⟩ := keys e e' hf
        rw [addr, tag]
        exact h.route e he (isRoute_congr query ▸ hr) (((stays h e he).2 e' hf) ▸ hb)
      find := fun e' he' hr hb => by
        obtain ⟨e, he, hf⟩ := List.mem_filterMap.1 he'
        obtain ⟨addr, tag, query, -⟩ := keys e e' hf
        rw [addr, tag]
        exact h.find e he (isRoute_congr query ▸ hr) (((stays h e he).2 e' hf) ▸ hb)
      routeWork := fun w hw => by
        obtain ⟨e, he, addr, tag, hr, hb⟩ := h.routeWork w hw
        cases hf : f e with
        | none => exact absurd hb (by simp [(stays h e he).1 hf])
        | some e' =>
          obtain ⟨addr', tag', query, -⟩ := keys e e' hf
          exact ⟨e', List.mem_filterMap.2 ⟨e, he, hf⟩, addr'.trans addr, tag'.trans tag, (isRoute_congr query).trans hr,
            ((stays h e he).2 e' hf).trans hb⟩
      findWork := fun w hw => by
        obtain ⟨e, he, addr, tag, hr, hb⟩ := h.findWork w hw
        cases hf : f e with
        | none => exact absurd hb (by simp [(stays h e he).1 hf])
        | some e' =>
          obtain ⟨addr', tag', query, -⟩ := keys e e' hf
          exact ⟨e', List.mem_filterMap.2 ⟨e, he, hf⟩, addr'.trans addr, tag'.trans tag, (isRoute_congr query).trans hr,
            ((stays h e he).2 e' hf).trans hb⟩ }

/-- The route engine becomes idle: its entry is freed or READY, and no other entry leaves or comes to its engine. -/
theorem keeps_routeFreed {s : State} {f : QueryEntry → Option QueryEntry} {w : RouteWork} {x : Search}
    (keys : SameKeys f) (work : s.re.work = some w)
    (freed : EngineInv s → ∀ e ∈ s.qt.entries, e.addr = w.addr → e.tag = w.tag → NotBusy f e)
    (stays : EngineInv s → ∀ e ∈ s.qt.entries, ¬(e.addr = w.addr ∧ e.tag = w.tag) → StaysBusy f e)
    (search : SearchInv s.re.search → SearchInv x) :
    Keeps s { s with qt := { entries := s.qt.entries.filterMap f }, re := { work := none, search := x } } where
  table := tableInv_filterMap keys rfl
  queues := queuesInv_filterMap keys rfl rfl
  frontiers h := ⟨search h.search, h.tree⟩
  engine h :=
    { h with
      distinct := distinct_filterMap keys h.distinct
      route := fun e' he' hr hb => by
        obtain ⟨e, he, hf⟩ := List.mem_filterMap.1 he'
        obtain ⟨-, -, query, -⟩ := keys e e' hf
        by_cases own : e.addr = w.addr ∧ e.tag = w.tag
        · exact absurd hb (by simp [freed h e he own.1 own.2 e' hf])
        · obtain ⟨w', hw', addr, tag⟩ := h.route e he (isRoute_congr query ▸ hr) (((stays h e he own).2 e' hf) ▸ hb)
          cases work.symm.trans hw'
          exact absurd ⟨addr.symm, tag.symm⟩ own
      find := fun e' he' hr hb => by
        obtain ⟨e, he, hf⟩ := List.mem_filterMap.1 he'
        obtain ⟨addr, tag, query, -⟩ := keys e e' hf
        by_cases own : e.addr = w.addr ∧ e.tag = w.tag
        · exact absurd hb (by simp [freed h e he own.1 own.2 e' hf])
        · rw [addr, tag]
          exact h.find e he (isRoute_congr query ▸ hr) (((stays h e he own).2 e' hf) ▸ hb)
      routeWork := fun _ hw => by cases hw
      findWork := fun w' hw' => by
        obtain ⟨e, he, addr, tag, hr, hb⟩ := h.findWork w' hw'
        obtain ⟨e₀, he₀, addr₀, tag₀, hr₀, -⟩ := h.routeWork w work
        have own : ¬(e.addr = w.addr ∧ e.tag = w.tag) := fun ⟨ha, ht⟩ => by
          rw [eq_of_tag h.distinct he he₀ (ha.trans addr₀.symm) (ht.trans tag₀.symm), hr₀] at hr
          exact absurd hr (by simp)
        cases hf : f e with
        | none => exact absurd hb (by simp [(stays h e he own).1 hf])
        | some e' =>
          obtain ⟨addr', tag', query, -⟩ := keys e e' hf
          exact ⟨e', List.mem_filterMap.2 ⟨e, he, hf⟩, addr'.trans addr, tag'.trans tag, (isRoute_congr query).trans hr,
            ((stays h e he own).2 e' hf).trans hb⟩
      turn := fun ht => ⟨rfl, (h.turn ht).2⟩
      build := fun hu => ⟨rfl, (h.build hu).2⟩ }

/-- The find engine becomes idle: its entry is freed or READY, and no other entry leaves or comes to its engine. -/
theorem keeps_findFreed {s : State} {f : QueryEntry → Option QueryEntry} {w : FindWork}
    (keys : SameKeys f) (work : s.fe.work = some w)
    (freed : EngineInv s → ∀ e ∈ s.qt.entries, e.addr = w.addr → e.tag = w.tag → NotBusy f e)
    (stays : EngineInv s → ∀ e ∈ s.qt.entries, ¬(e.addr = w.addr ∧ e.tag = w.tag) → StaysBusy f e) :
    Keeps s { s with qt := { entries := s.qt.entries.filterMap f }, fe := { work := none } } where
  table := tableInv_filterMap keys rfl
  queues := queuesInv_filterMap keys rfl rfl
  engine h :=
    { h with
      distinct := distinct_filterMap keys h.distinct
      find := fun e' he' hr hb => by
        obtain ⟨e, he, hf⟩ := List.mem_filterMap.1 he'
        obtain ⟨-, -, query, -⟩ := keys e e' hf
        by_cases own : e.addr = w.addr ∧ e.tag = w.tag
        · exact absurd hb (by simp [freed h e he own.1 own.2 e' hf])
        · obtain ⟨w', hw', addr, tag⟩ := h.find e he (isRoute_congr query ▸ hr) (((stays h e he own).2 e' hf) ▸ hb)
          cases work.symm.trans hw'
          exact absurd ⟨addr.symm, tag.symm⟩ own
      route := fun e' he' hr hb => by
        obtain ⟨e, he, hf⟩ := List.mem_filterMap.1 he'
        obtain ⟨addr, tag, query, -⟩ := keys e e' hf
        by_cases own : e.addr = w.addr ∧ e.tag = w.tag
        · exact absurd hb (by simp [freed h e he own.1 own.2 e' hf])
        · rw [addr, tag]
          exact h.route e he (isRoute_congr query ▸ hr) (((stays h e he own).2 e' hf) ▸ hb)
      findWork := fun _ hw => by cases hw
      routeWork := fun w' hw' => by
        obtain ⟨e, he, addr, tag, hr, hb⟩ := h.routeWork w' hw'
        obtain ⟨e₀, he₀, addr₀, tag₀, hr₀, -⟩ := h.findWork w work
        have own : ¬(e.addr = w.addr ∧ e.tag = w.tag) := fun ⟨ha, ht⟩ => by
          rw [eq_of_tag h.distinct he he₀ (ha.trans addr₀.symm) (ht.trans tag₀.symm), hr₀] at hr
          exact absurd hr (by simp)
        cases hf : f e with
        | none => exact absurd hb (by simp [(stays h e he own).1 hf])
        | some e' =>
          obtain ⟨addr', tag', query, -⟩ := keys e e' hf
          exact ⟨e', List.mem_filterMap.2 ⟨e, he, hf⟩, addr'.trans addr, tag'.trans tag, (isRoute_congr query).trans hr,
            ((stays h e he own).2 e' hf).trans hb⟩
      turn := fun ht => ⟨(h.turn ht).1, rfl⟩ }

/-! ### Changes and dropping as `filterMap` -/

theorem map_eq_filterMap {α β : Type} (g : α → β) (l : List α) : l.map g = l.filterMap fun x => some (g x) :=
  List.filterMap_eq_map.symm ▸ rfl

theorem filter_eq_filterMap {α : Type} (p : α → Bool) (l : List α) :
    l.filter p = l.filterMap fun x => if p x then some x else none := by
  induction l with
  | nil => rfl
  | cons x l ih => by_cases h : p x <;> simp [h, ih]

/-- Entries that change in place and stay with their engines or away from them. -/
theorem keeps_mapEntries {s : State} {g : QueryEntry → QueryEntry}
    (keys : ∀ e, (g e).addr = e.addr ∧ (g e).tag = e.tag ∧ (g e).query = e.query ∧ (g e).slot = e.slot)
    (stays : EngineInv s → ∀ e ∈ s.qt.entries, busy (g e) = busy e) :
    Keeps s { s with qt := { entries := s.qt.entries.map g } } := by
  rw [map_eq_filterMap]
  exact keeps_queries (by rintro e _ ⟨⟩; exact keys e) fun h e he => ⟨nofun, by rintro _ ⟨⟩; exact stays h e he⟩

/-- Entries that leave, none of them with its engine. -/
theorem keeps_filterEntries {s : State} {p : QueryEntry → Bool}
    (idle : EngineInv s → ∀ e ∈ s.qt.entries, p e = false → busy e = false) :
    Keeps s { s with qt := { entries := s.qt.entries.filter p } } := by
  rw [filter_eq_filterMap]
  refine keeps_queries (fun e e' h => ?_) fun h e he => ⟨fun hf => ?_, fun e' hf => ?_⟩
  · split at h <;> cases h; exact ⟨rfl, rfl, rfl, rfl⟩
  · exact idle h e he (by simpa using hf)
  · dsimp only at hf; split at hf <;> cases hf; rfl

theorem isEntry_iff (a : Addr) (tag : Tag) (e : QueryEntry) : isEntry a tag e = true ↔ e.addr = a ∧ e.tag = tag := by
  simp [isEntry]

/-- The entry that a search by station and tag finds is the only one of its station and tag. -/
theorem eq_of_isEntry {s : State} (h : TagsDistinct s.qt.entries) {a : Addr} {tag : Tag} {e x : QueryEntry}
    (found : findEntry s.qt a tag = some e) (hx : x ∈ s.qt.entries) (same : isEntry a tag x = true) : x = e := by
  obtain ⟨mem, addr, htag⟩ := findEntry_some found
  rw [isEntry_iff] at same
  exact eq_of_tag h hx mem (same.1.trans addr.symm) (same.2.trans htag.symm)

theorem keeps_updateEntry {s : State} {a : Addr} {tag : Tag} {g : QueryEntry → QueryEntry}
    (keys : ∀ e, (g e).addr = e.addr ∧ (g e).tag = e.tag ∧ (g e).query = e.query ∧ (g e).slot = e.slot)
    (stays : EngineInv s → ∀ e ∈ s.qt.entries, isEntry a tag e = true → busy (g e) = busy e) :
    Keeps s (updateEntry a tag g s) := by
  refine keeps_mapEntries (g := fun e => if isEntry a tag e then g e else e) (fun e => ?_) fun h e he => ?_
  · split
    · exact keys e
    · exact ⟨rfl, rfl, rfl, rfl⟩
  · split
    · exact stays h e he ‹_›
    · rfl

theorem keeps_dropEntry {s : State} {a : Addr} {tag : Tag}
    (idle : EngineInv s → ∀ e ∈ s.qt.entries, isEntry a tag e = true → busy e = false) :
    Keeps s (dropEntry a tag s) :=
  keeps_filterEntries fun h e he hp => idle h e he (by simpa using hp)

theorem keeps_freeEntry {s : State} {e : QueryEntry}
    (idle : EngineInv s → ∀ x ∈ s.qt.entries, isEntry e.addr e.tag x = true → busy x = false) :
    Keeps s (freeEntry e s) :=
  (keeps_updateStation (f := releaseSlot e.slot) (stationKept_releaseSlot _ _)).trans
    (keeps_dropEntry fun h => idle { h with })

/-! ### An entry admitted (R106, R109) -/

theorem keeps_append {s : State} {e : QueryEntry} (idle : busy e = false)
    (free : findEntry s.qt e.addr e.tag = none) (size : s.qt.entries.length < 32) (each : liveCount s.qt e.addr < 2)
    (slot : e.slot < (stationAt s e.addr).nextPlace) :
    Keeps s { s with qt := { entries := s.qt.entries ++ [e] } } where
  table h :=
    { size := by simpa using size
      each := fun a => by
        have before := h.each a
        unfold liveCount at before each ⊢
        by_cases ha : e.addr = a
        · subst ha; simp only [List.filter_append, List.length_append]; simp; omega
        · simpa [List.filter_append, ha] using before
      distinct := tagsDistinct_append h.distinct (by simpa using findEntry_none.1 free) }
  queues h :=
    { slots := h.slots
      entries := by
        simp only [List.mem_append, List.mem_singleton]
        rintro x (hx | rfl)
        · exact h.entries x hx
        · exact slot }
  engine h :=
    { h with
      distinct := tagsDistinct_append h.distinct (by simpa using findEntry_none.1 free)
      route := by
        simp only [List.mem_append, List.mem_singleton]
        rintro x (hx | rfl) hr hb
        · exact h.route x hx hr hb
        · exact absurd hb (by simp [idle])
      find := by
        simp only [List.mem_append, List.mem_singleton]
        rintro x (hx | rfl) hr hb
        · exact h.find x hx hr hb
        · exact absurd hb (by simp [idle])
      routeWork := fun w hw => by
        obtain ⟨x, hx, rest⟩ := h.routeWork w hw
        exact ⟨x, List.mem_append_left _ hx, rest⟩
      findWork := fun w hw => by
        obtain ⟨x, hx, rest⟩ := h.findWork w hw
        exact ⟨x, List.mem_append_left _ hx, rest⟩ }

/-! ### The engines' own records -/

theorem keeps_routeWork {s : State} {w w' : RouteWork} {x : Search} (work : s.re.work = some w) (addr : w'.addr = w.addr)
    (tag : w'.tag = w.tag) (search : SearchInv s.re.search → SearchInv x) :
    Keeps s { s with re := { work := some w', search := x } } where
  frontiers h := ⟨search h.search, h.tree⟩
  engine h :=
    { h with
      route := fun e he hr hb => by
        obtain ⟨w₀, hw₀, ha, ht⟩ := h.route e he hr hb
        cases work.symm.trans hw₀
        exact ⟨w', rfl, addr.trans ha, tag.trans ht⟩
      routeWork := fun w₁ hw₁ => by
        cases hw₁
        obtain ⟨e, he, ha, ht, rest⟩ := h.routeWork w work
        exact ⟨e, he, ha.trans addr.symm, ht.trans tag.symm, rest⟩
      turn := fun ht => absurd (h.turn ht).1 (by simp [work])
      build := fun hu => absurd (h.build hu).1 (by simp [work]) }

theorem keeps_findWork {s : State} {w w' : FindWork} (work : s.fe.work = some w) (addr : w'.addr = w.addr)
    (tag : w'.tag = w.tag) : Keeps s (withFindWork w' s) where
  engine h :=
    { h with
      find := fun e he hr hb => by
        obtain ⟨w₀, hw₀, ha, ht⟩ := h.find e he hr hb
        cases work.symm.trans hw₀
        exact ⟨w', rfl, addr.trans ha, tag.trans ht⟩
      findWork := fun w₁ hw₁ => by
        cases hw₁
        obtain ⟨e, he, ha, ht, rest⟩ := h.findWork w work
        exact ⟨e, he, ha.trans addr.symm, ht.trans tag.symm, rest⟩
      turn := fun ht => absurd (h.turn ht).2 (by simp [work]) }

/-! ### Searches that begin (R130, R183) -/

theorem searchInv_congr {x y : Search} (records : y.records = x.records) (frontier : y.frontier = x.frontier)
    (h : SearchInv x) : SearchInv y := by
  cases x; cases y; cases records; cases frontier
  exact { h with }

theorem searchInv_discarded {x : Search} (a : Bool) (h : SearchInv x) :
    SearchInv { x with frontier := [], approximate := a } where
  records := h.records
  size := by simp
  ordered := List.Pairwise.nil
  once := List.Pairwise.nil
  costs := by simp

theorem searchInv_beginSearch (origin : Nat) : SearchInv (beginSearch origin) where
  records := List.pairwise_singleton _ _
  size := by simp [beginSearch]
  ordered := List.pairwise_singleton _ _
  once := List.pairwise_singleton _ _
  costs := by simp [beginSearch, recordOf, tableGet]

theorem searchInv_startRoute {s : State} (e : QueryEntry) (target : Target) (profile : Profile) (origin : Option Nat)
    (h : SearchInv s.re.search) : SearchInv (startRoute s e target profile origin).search := by
  have unsearched : SearchInv { s.re.search with approximate := false } :=
    searchInv_congr (x := s.re.search) rfl rfl h
  unfold startRoute
  dsimp only
  split
  · exact unsearched
  · split
    · exact unsearched
    · split
      · exact unsearched
      · exact searchInv_beginSearch _

/-! ### The arbiters (R110, R111) -/

theorem grantRoute_eq (s : State) : grantRoute s = { s with qt := (grantRoute s).qt, re := (grantRoute s).re } := by
  obtain ⟨h1, h2, h3, h4, h5, h6, h7, h8, h9, h10, h11, h12, h13⟩ := grantRoute_frame s
  cases hg : grantRoute s
  simp_all

theorem grantFind_eq (s : State) : grantFind s = { s with qt := (grantFind s).qt, fe := (grantFind s).fe } := by
  obtain ⟨h1, h2, h3, h4, h5, h6, h7, h8, h9, h10, h11, h12, h13⟩ := grantFind_frame s
  cases hg : grantFind s
  simp_all

theorem SomeGranted.filterMap {s : State} {before after : List QueryEntry} (h : SomeGranted s before after) :
    ∃ f, SameKeys f ∧ after = before.filterMap f := by
  obtain ⟨chosen, rfl⟩ := h
  refine ⟨fun x => some (if chosen x then granted s x else x), ?_, map_eq_filterMap _ _⟩
  rintro e _ ⟨⟩
  split <;> exact ⟨rfl, rfl, rfl, rfl⟩

theorem distinct_granted {s : State} {before after : List QueryEntry} (h : SomeGranted s before after)
    (distinct : TagsDistinct before) : TagsDistinct after := by
  obtain ⟨f, keys, rfl⟩ := h.filterMap
  exact distinct_filterMap keys distinct

theorem isRoute_of_oldest {qt : QueryTable} {e : QueryEntry} (h : oldestQueued isRoute qt = some e) :
    e ∈ qt.entries ∧ isRoute e = true :=
  ⟨List.mem_of_find?_eq_some h, by have := List.find?_some h; simp_all⟩

theorem not_isRoute_of_oldest {qt : QueryTable} {e : QueryEntry} (h : oldestQueued (fun e => !isRoute e) qt = some e) :
    e ∈ qt.entries ∧ isRoute e = false :=
  ⟨List.mem_of_find?_eq_some h, by have := List.find?_some h; simp_all⟩

theorem searchInv_grantRoute {s : State} (h : SearchInv s.re.search) : SearchInv (grantRoute s).re.search := by
  unfold grantRoute
  split
  · split
    · exact h
    · split
      · exact searchInv_startRoute _ _ _ _ h
      · exact h
      · exact h
  · exact h

/-- The route arbiter grants an entry only when its engine is idle, in STEADY, and no tree is being built. -/
theorem routeMayGrant_iff (s : State) : routeMayGrant s = true ↔ routeOpen s := by simp [routeMayGrant, and_assoc]

theorem engineInv_grantRoute {s : State} (h : EngineInv s) : EngineInv (grantRoute s) := by
  by_cases may : routeMayGrant s = true ∧ oldestQueued isRoute s.qt ≠ none
  case neg => rw [grantRoute_none (by simpa [imp_iff_or_not, or_comm] using may)]; exact h
  obtain ⟨may, waits⟩ := may
  obtain ⟨e, oldest⟩ := Option.ne_none_iff_exists'.1 waits
  obtain ⟨entries, w, work, addr, tag⟩ := grantRoute_some h.distinct may oldest
  obtain ⟨idle, steady, clear⟩ := (routeMayGrant_iff s).1 may
  obtain ⟨mem, route⟩ := isRoute_of_oldest oldest
  have not_building : s.eu.unit ≠ .building := fun hu => by
    rcases clear with hl | ha
    · exact absurd (h.latch hl) (by simp [hu])
    · exact absurd ha (by simp [hu])
  have mem' : granted s e ∈ (grantRoute s).qt.entries := entries ▸ List.mem_map.2 ⟨e, mem, if_pos rfl⟩
  have others : ∀ x ∈ (grantRoute s).qt.entries, x = granted s e ∨ x ∈ s.qt.entries := fun x hx => by
    rw [entries] at hx
    obtain ⟨y, hy, rfl⟩ := List.mem_map.1 hx
    split
    · subst_vars; exact .inl rfl
    · exact .inr hy
  have route' : isRoute (granted s e) = true := route
  exact
    { latch := by simpa [LatchInv] using h.latch
      distinct := distinct_granted (someGranted_grantRoute s) h.distinct
      route := fun x hx hr hb => by
        rcases others x hx with rfl | hx'
        · exact ⟨w, work, addr, tag⟩
        · obtain ⟨w', hw', -⟩ := h.route x hx' hr hb
          exact absurd hw' (by simp [idle])
      find := fun x hx hr hb => by
        rcases others x hx with rfl | hx'
        · exact absurd hr (by simp [route'])
        · simpa using h.find x hx' hr hb
      routeWork := fun w' hw' => by
        cases work.symm.trans hw'
        exact ⟨granted s e, mem', addr.symm, tag.symm, route', rfl⟩
      findWork := fun w' hw' => by
        obtain ⟨x, hx, ha, ht, hr, hb⟩ := h.findWork w' (by simpa using hw')
        refine ⟨x, entries ▸ List.mem_map.2 ⟨x, hx, if_neg ?_⟩, ha, ht, hr, hb⟩
        rintro rfl; simp [route] at hr
      expiry := by simpa using h.expiry
      turn := fun ht => by simp [steady] at ht
      build := fun hu => absurd (by simpa using hu) not_building }

theorem keeps_grantRoute (s : State) : Keeps s (grantRoute s) := by
  obtain ⟨f, keys, entries⟩ := (someGranted_grantRoute s).filterMap
  have table : TableInv s → TableInv (grantRoute s) := tableInv_filterMap keys entries
  have queues : QueuesInv s → QueuesInv (grantRoute s) := queuesInv_filterMap keys entries (by simp)
  have engine : EngineInv s → EngineInv (grantRoute s) := engineInv_grantRoute
  have search : SearchInv s.re.search → SearchInv (grantRoute s).re.search := searchInv_grantRoute
  rw [grantRoute_eq] at engine table queues ⊢
  exact { engine := engine, table := table, queues := queues, frontiers := fun h => ⟨search h.search, h.tree⟩ }

theorem engineInv_grantFind {s : State} (h : EngineInv s) : EngineInv (grantFind s) := by
  by_cases may : (s.fe.work = none ∧ s.ec.turn = .steady) ∧ oldestQueued (fun e => !isRoute e) s.qt ≠ none
  case neg => rw [grantFind_none (by tauto)]; exact h
  obtain ⟨⟨idle, steady⟩, waits⟩ := may
  obtain ⟨e, oldest⟩ := Option.ne_none_iff_exists'.1 waits
  obtain ⟨entries, w, work, addr, tag⟩ := grantFind_some h.distinct idle steady oldest
  obtain ⟨mem, find⟩ := not_isRoute_of_oldest oldest
  have mem' : granted s e ∈ (grantFind s).qt.entries := entries ▸ List.mem_map.2 ⟨e, mem, if_pos rfl⟩
  have others : ∀ x ∈ (grantFind s).qt.entries, x = granted s e ∨ x ∈ s.qt.entries := fun x hx => by
    rw [entries] at hx
    obtain ⟨y, hy, rfl⟩ := List.mem_map.1 hx
    split
    · subst_vars; exact .inl rfl
    · exact .inr hy
  have find' : isRoute (granted s e) = false := find
  exact
    { latch := by simpa [LatchInv] using h.latch
      distinct := distinct_granted (someGranted_grantFind s) h.distinct
      find := fun x hx hr hb => by
        rcases others x hx with rfl | hx'
        · exact ⟨w, work, addr, tag⟩
        · obtain ⟨w', hw', -⟩ := h.find x hx' hr hb
          exact absurd hw' (by simp [idle])
      route := fun x hx hr hb => by
        rcases others x hx with rfl | hx'
        · exact absurd hr (by simp [find'])
        · simpa using h.route x hx' hr hb
      findWork := fun w' hw' => by
        cases work.symm.trans hw'
        exact ⟨granted s e, mem', addr.symm, tag.symm, find', rfl⟩
      routeWork := fun w' hw' => by
        obtain ⟨x, hx, ha, ht, hr, hb⟩ := h.routeWork w' (by simpa using hw')
        refine ⟨x, entries ▸ List.mem_map.2 ⟨x, hx, if_neg ?_⟩, ha, ht, hr, hb⟩
        rintro rfl; simp [find] at hr
      expiry := by simpa using h.expiry
      turn := fun ht => by simp [steady] at ht
      build := by simpa using h.build }

theorem keeps_grantFind (s : State) : Keeps s (grantFind s) := by
  obtain ⟨f, keys, entries⟩ := (someGranted_grantFind s).filterMap
  have table : TableInv s → TableInv (grantFind s) := tableInv_filterMap keys entries
  have queues : QueuesInv s → QueuesInv (grantFind s) := queuesInv_filterMap keys entries (by simp)
  have engine : EngineInv s → EngineInv (grantFind s) := engineInv_grantFind
  rw [grantFind_eq] at engine table queues ⊢
  exact { engine := engine, table := table, queues := queues }

theorem keeps_grant (s : State) : Keeps s (grant s) := (keeps_grantRoute s).trans (keeps_grantFind _)

end Sys2Proof.Proofs
end

section
/-! What keeps the invariants of the searches, of the Epoch Controller and of the Evacuation Unit: relaxations, turns, the
build of the exit tree, an evacuation entry and its clear, and the steps of the engines. -/

namespace Sys2Proof.Proofs
open Sys2Proof.Machine Sys2Proof.Safety Sys2Proof.Laws

/-! ### The frontier (R131, R133, R134) -/

/-- A node recorded and put in its place among entries that are in order, of other nodes and at their costs. -/
theorem searchInv_insert {records : List (Nat × NodeRecord)} {kept : List (Nat × Nat)} (cost : Nat) (via : Option Nat)
    (n : Nat) (a : Bool) (sorted : TableSorted records) (size : kept.length < 512)
    (ordered : kept.Pairwise fun e f => frontierBefore e f = true) (once : kept.Pairwise fun e f => e.2 ≠ f.2)
    (other : ∀ f ∈ kept, f.2 ≠ n)
    (costs : ∀ e ∈ kept, ∀ y : Search, y.records = records →
      (recordOf y e.2).cost = e.1 ∧ (recordOf y e.2).settled = false) :
    SearchInv { records := tablePut records n { cost := cost, via := via, settled := false }
                frontier := frontierInsert (cost, n) kept, approximate := a } where
  records := tableSorted_put sorted _ _
  size := by rw [(frontierInsert_perm _ _).length_eq]; exact size
  ordered := frontierInsert_ordered _ ordered other
  once := by
    rw [(frontierInsert_perm _ _).pairwise_iff (fun h => h.symm), List.pairwise_cons]
    exact ⟨fun f hf => (other f hf).symm, once⟩
  costs e he := by
    let x : Search := { records := records, frontier := [], approximate := a }
    rcases List.mem_cons.1 ((frontierInsert_perm _ _).mem_iff.1 he) with rfl | he
    · rw [recordOf_put_same x]; exact ⟨rfl, rfl⟩
    · rw [recordOf_put_other x _ _ _ (other e he)]; exact costs e he x rfl

theorem recordOf_congr {x y : Search} (h : y.records = x.records) (n : Nat) : recordOf y n = recordOf x n := by
  simp [recordOf, h]

theorem searchInv_reach {x : Search} (cost : Nat) (via : Option Nat) (n : Nat) (h : SearchInv x) :
    SearchInv (reach cost via n x) := by
  unfold reach
  dsimp only
  split
  case isTrue present =>
    obtain ⟨e, he, hn⟩ := (inFrontier_iff n _).1 present
    refine searchInv_insert cost via n _ h.records ?_ (h.ordered.filter _) (h.once.filter _) ?_ ?_
    · exact (List.length_filter_lt_length_iff_exists.2 ⟨e, he, by simp [hn]⟩).trans_le h.size
    · intro f hf; simpa using (List.mem_filter.1 hf).2
    · intro e he y hy
      rw [recordOf_congr hy]; exact h.costs e (List.mem_filter.1 he).1
  case isFalse absent =>
    have other : ∀ f ∈ x.frontier, f.2 ≠ n := fun f hf hn => absent ((inFrontier_iff n _).2 ⟨f, hf, hn⟩)
    split
    · refine searchInv_insert cost via n _ h.records ‹_› h.ordered h.once other fun e he y hy => ?_
      rw [recordOf_congr hy]; exact h.costs e he
    · split
      · exact h
      · rename_i lastCost last hl
        obtain ⟨kept, hk⟩ := List.getLast?_eq_some_iff.1 hl
        split
        · exact
            { h with
              records := tableSorted_erase h.records _
              costs := fun e he => by rw [recordOf_erase_other x _ _ (other e he)]; exact h.costs e he }
        · have sub : x.frontier.dropLast = kept := by rw [hk]; simp
          have mem : ∀ e ∈ kept, e ∈ x.frontier := fun e he => hk ▸ List.mem_append_left _ he
          have apart : ∀ e ∈ kept, e.2 ≠ last := fun e he =>
            (List.pairwise_append.1 (hk ▸ h.once)).2.2 e he _ (List.mem_singleton.2 rfl)
          rw [sub]
          refine searchInv_insert cost via n _ (tableSorted_erase h.records _) ?_ ?_ ?_ (fun f hf => other f (mem f hf)) ?_
          · have := h.size; rw [hk] at this; simp at this; omega
          · exact (List.pairwise_append.1 (hk ▸ h.ordered)).1
          · exact (List.pairwise_append.1 (hk ▸ h.once)).1
          · intro e he y hy
            have same : recordOf y e.2 = recordOf x e.2 := by
              rw [← recordOf_erase_other x (n := last) [] true (apart e he)]; exact recordOf_congr hy _
            rw [same]; exact h.costs e (mem e he)

theorem searchInv_offer {x : Search} (cost segment n : Nat) (h : SearchInv x) : SearchInv (offer cost segment n x) := by
  unfold offer
  repeat' split
  all_goals first | exact h | exact searchInv_reach _ _ _ h

theorem searchInv_relaxForward {x : Search} (c : Configuration) (profile : Profile) (wg : Graph) (p segment : Nat)
    (h : SearchInv x) : SearchInv (relaxForward c profile wg p segment x) := by
  unfold relaxForward
  repeat' split
  all_goals first | exact h | exact searchInv_offer _ _ _ h

theorem searchInv_relaxBackward {x : Search} (c : Configuration) (wg : Graph) (q segment : Nat)
    (h : SearchInv x) : SearchInv (relaxBackward c wg q segment x) := by
  unfold relaxBackward
  repeat' split
  all_goals first | exact h | exact searchInv_offer _ _ _ h

theorem searchInv_foldl {α : Type} {f : Search → α → Search} (step : ∀ x a, SearchInv x → SearchInv (f x a))
    (l : List α) {x : Search} (h : SearchInv x) : SearchInv (l.foldl f x) := by
  induction l generalizing x with
  | nil => exact h
  | cons a l ih => exact ih (step x a h)

theorem searchInv_relaxAll {relax : Nat → Search → Search} (step : ∀ m x, SearchInv x → SearchInv (relax m x))
    (segments : List Nat) {x : Search} (h : SearchInv x) : SearchInv (relaxAll relax segments x) :=
  searchInv_foldl (fun y m => step m y) segments h

theorem searchInv_settleFirst {x : Search} {c n : Nat} {rest : List (Nat × Nat)} (front : x.frontier = (c, n) :: rest)
    (h : SearchInv x) : SearchInv (settleFirst n rest x) where
  records := tableSorted_put h.records _ _
  size := by have := h.size; rw [front] at this; exact (Nat.le_succ _).trans this
  ordered := (List.pairwise_cons.1 (front ▸ h.ordered)).2
  once := (List.pairwise_cons.1 (front ▸ h.once)).2
  costs e he := by
    have other : e.2 ≠ n := ((List.pairwise_cons.1 (front ▸ h.once)).1 e he).symm
    show (recordOf { records := _, frontier := rest, approximate := x.approximate } e.2).cost = _ ∧ _
    rw [settleFirst, recordOf_put_other x _ _ _ other]
    exact h.costs e (front ▸ List.mem_cons_of_mem _ he)

theorem searchInv_empty : SearchInv Search.empty where
  records := List.Pairwise.nil
  size := by simp [Search.empty]
  ordered := List.Pairwise.nil
  once := List.Pairwise.nil
  costs := by simp [Search.empty]

theorem searchInv_beginTree (wg : Graph) : SearchInv (beginTree wg) :=
  searchInv_foldl (fun _ _ => searchInv_reach _ _ _) _ searchInv_empty

/-! ### The Epoch Controller and the Evacuation Unit -/

/-- The controller and the unit changed together. -/
theorem keeps_control {s : State} {ec : EpochController} {eu : EvacUnit}
    (latch : EngineInv s → eu.latch = false → eu.unit = .off)
    (expiry : EngineInv s → ec.expiring = true → ec.turn = .steady)
    (turn : EngineInv s → ec.turn = .applying ∨ ec.turn = .validating → s.re.work = none ∧ s.fe.work = none)
    (build : EngineInv s → eu.unit = .building → s.re.work = none ∧ ec.turn = .steady)
    (tree : SearchInv s.eu.tree → SearchInv eu.tree) : Keeps s { s with ec := ec, eu := eu } where
  engine h := { h with latch := latch h, expiry := expiry h, turn := turn h, build := build h }
  frontiers h := ⟨h.search, tree h.tree⟩

/-- A turn begins outside a build; no expiry waits in it. -/
theorem keeps_turnBegun {s : State} {ec : EpochController} (turn : ec.turn = .draining) (expiring : ec.expiring = false)
    (unit : s.eu.unit ≠ .building) : Keeps s { s with ec := ec } :=
  keeps_control (eu := s.eu) (fun h => h.latch) (fun _ he => by simp [expiring] at he) (fun _ ht => by simp [turn] at ht)
    (fun _ hu => absurd hu unit) id

/-- The controller changed in fields that no invariant reads. -/
theorem keeps_controller {s : State} {ec : EpochController} (turn : ec.turn = s.ec.turn)
    (expiring : ec.expiring = true → s.ec.expiring = true) : Keeps s { s with ec := ec } :=
  keeps_control (eu := s.eu) (fun h => h.latch) (fun h he => turn.trans (h.expiry (expiring he)))
    (fun h ht => h.turn (turn ▸ ht)) (fun h hu => ⟨(h.build hu).1, turn.trans (h.build hu).2⟩) id

theorem keeps_requestTurn (s : State) : Keeps s (requestTurn s) := by
  unfold requestTurn
  split
  · exact .refl s
  all_goals
    exact .ite (fun h => keeps_turnBegun rfl rfl h.2) fun _ => keeps_controller rfl id

theorem keeps_requestIf (w : Bool) (s : State) : Keeps s (requestIf w s) :=
  .ite (fun _ => keeps_requestTurn s) fun _ => .refl s

theorem buildDue_iff (s : State) : buildDue s = true ↔
    s.service = .service ∧ s.eu.latch = true ∧ s.eu.unit = .off ∧ s.ec.turn = .steady ∧ s.re.work = none := by
  simp [buildDue, and_assoc]

theorem keeps_startBuild {s : State} (latch : s.eu.latch = true) (steady : s.ec.turn = .steady)
    (idle : s.re.work = none) : Keeps s (startBuild s) :=
  keeps_control (ec := s.ec) (fun _ hl => absurd latch (by simp [show s.eu.latch = false from hl])) (fun h => h.expiry)
    (fun h => h.turn) (fun _ _ => ⟨idle, steady⟩) fun _ => searchInv_beginTree s.wg

theorem keeps_whenever_startBuild (s : State) : Keeps s (whenever (buildDue s = true) startBuild s) :=
  .whenever fun due => by
    obtain ⟨-, latch, -, steady, idle⟩ := (buildDue_iff s).1 due
    exact keeps_startBuild latch steady idle

theorem keeps_beginBuildIfDue (s : State) : Keeps s (beginBuildIfDue s) := keeps_whenever_startBuild s

theorem keeps_afterRouteIdle (s : State) : Keeps s (afterRouteIdle s) := (keeps_beginBuildIfDue s).trans (keeps_grant _)

theorem keeps_afterBuild {s : State} (unit : s.eu.unit ≠ .building) : Keeps s (afterBuild s) :=
  .ite (fun _ => keeps_turnBegun rfl rfl unit) fun _ => keeps_grant s

/-- The unit has no tree in build: it is ACTIVE under the latch, or OFF. -/
theorem keeps_unit {s : State} {eu : EvacUnit} (unit : eu.unit = .off ∨ (eu.unit = s.eu.unit ∧ eu.latch = true)
    ∨ (eu.unit = .active ∧ s.eu.unit = .building ∧ eu.latch = s.eu.latch)) (tree : eu.tree = s.eu.tree) :
    Keeps s { s with eu := eu } := by
  refine keeps_control (ec := s.ec) (fun h hl => ?_) (fun h => h.expiry) (fun h => h.turn) (fun h hu => ?_)
    (fun h => tree ▸ h)
  · rcases unit with off | ⟨-, latch⟩ | ⟨-, building, latch⟩
    · exact off
    · exact absurd hl (by simp [latch])
    · exact absurd (h.latch (latch ▸ hl)) (by simp [building])
  · rcases unit with off | ⟨same, -⟩ | ⟨active, -⟩
    · simp [off] at hu
    · exact h.build (same ▸ hu)
    · simp [active] at hu

theorem keeps_raiseGroups (groups : Groups) (s : State) : Keeps s (raiseGroups groups s) :=
  keeps_mapStations fun _ => stationKept_raiseAt groups _

/-! ### An evacuation entry (R121, R181) -/

/-- What an evacuation entry does to one entry of the table. -/
def evacuated (e : QueryEntry) : Option QueryEntry :=
  match e.state with
  | .queued | .ready _ => none
  | .working => some { e with state := .halting .evacuation }
  | .halting _ => some e

theorem afterEvacuation_eq (entries : List QueryEntry) :
    afterEvacuation entries = entries.filterMap fun e => if isRoute e then evacuated e else some e := by
  unfold afterEvacuation evacuated; rfl

theorem sameKeys_evacuated (p : QueryEntry → Prop) [DecidablePred p] :
    SameKeys fun e => if p e then evacuated e else some e := by
  intro e e' h
  dsimp only at h
  split at h
  · unfold evacuated at h
    split at h <;> cases h <;> exact ⟨rfl, rfl, rfl, rfl⟩
  · cases h; exact ⟨rfl, rfl, rfl, rfl⟩

theorem staysBusy_evacuated (p : QueryEntry → Prop) [DecidablePred p] (e : QueryEntry) :
    StaysBusy (fun e => if p e then evacuated e else some e) e := by
  by_cases h : p e
  · simp only [StaysBusy, h, if_true, evacuated, busy]
    split <;> simp_all
  · simp [StaysBusy, h]

/-- One entry told of an evacuation entry: the table changes at it alone. -/
theorem evacuateEntry_entries {s : State} {e : QueryEntry} (distinct : TagsDistinct s.qt.entries)
    (mem : e ∈ s.qt.entries) :
    (evacuateEntry e s).qt.entries = s.qt.entries.filterMap fun x => if x = e then evacuated x else some x := by
  have only : ∀ x ∈ s.qt.entries, isEntry e.addr e.tag x = true ↔ x = e := fun x hx => by
    rw [isEntry_iff]
    exact ⟨fun h => eq_of_tag distinct hx mem h.1 h.2, by rintro rfl; exact ⟨rfl, rfl⟩⟩
  have dropped : (∀ x, x = e → evacuated x = none) → (s.qt.entries.filter fun x => !isEntry e.addr e.tag x) =
      s.qt.entries.filterMap fun x => if x = e then evacuated x else some x := fun gone => by
    rw [filter_eq_filterMap]
    refine List.filterMap_congr fun x hx => ?_
    by_cases h : x = e
    · subst h; simp [(only x hx).2 rfl, gone x rfl]
    · simp [show isEntry e.addr e.tag x = false by simpa using mt (only x hx).1 h, h]
  unfold evacuateEntry
  split
  · rename_i hs
    exact dropped (by rintro _ rfl; simp [evacuated, hs])
  · rename_i hs
    rw [updateEntry_qt, map_eq_filterMap]
    refine List.filterMap_congr fun x hx => ?_
    by_cases h : x = e
    · subst h; simp [(only x hx).2 rfl, evacuated, hs]
    · simp [show isEntry e.addr e.tag x = false by simpa using mt (only x hx).1 h, h]
  · rename_i hs
    exact dropped (by rintro _ rfl; simp [evacuated, hs])
  · rename_i hs
    rw [← List.filterMap_some (l := s.qt.entries)]
    conv_rhs => rw [List.filterMap_some]
    refine List.filterMap_congr fun x hx => ?_
    by_cases h : x = e
    · subst h; simp [evacuated, hs]
    · simp [h]

theorem evacuateList_entries (l : List QueryEntry) {s : State} (distinct : TagsDistinct s.qt.entries)
    (apart : TagsDistinct l) (mem : ∀ e ∈ l, e ∈ s.qt.entries) :
    (l.foldl (fun t e => evacuateEntry e t) s).qt.entries =
      s.qt.entries.filterMap fun x => if x ∈ l then evacuated x else some x := by
  induction l generalizing s with
  | nil => simp
  | cons e l ih =>
    obtain ⟨first, rest⟩ := List.pairwise_cons.1 apart
    have one := evacuateEntry_entries distinct (mem e List.mem_cons_self)
    have fresh : ∀ x ∈ l, x ≠ e := by rintro x hx rfl; exact first x hx ⟨rfl, rfl⟩
    rw [List.foldl_cons, ih (by rw [one]; exact distinct_filterMap (sameKeys_evacuated _) distinct) rest, one,
      List.filterMap_filterMap]
    · refine List.filterMap_congr fun x hx => ?_
      by_cases h : x = e
      · subst h
        simp only [if_true, List.mem_cons, true_or]
        cases hx' : evacuated x with
        | none => rfl
        | some y =>
          obtain ⟨addr, tag, -, -⟩ := sameKeys_evacuated (fun _ => True) x y (by simpa using hx')
          have : y ∉ l := fun hy => first y hy ⟨addr.symm, tag.symm⟩
          simp [this]
      · simp [h]
    · intro x hx
      rw [one]
      exact List.mem_filterMap.2 ⟨x, mem x (List.mem_cons_of_mem _ hx), by simp [fresh x hx]⟩

/-- The live entries after an evacuation entry in SERVICE (R121). -/
theorem evacuateEntries_entries {s : State} (distinct : TagsDistinct s.qt.entries) :
    (evacuateEntries s).qt.entries = afterEvacuation s.qt.entries := by
  rw [evacuateEntries, evacuateList_entries _ distinct (distinct.filter _) fun e he => (List.mem_filter.1 he).1,
    afterEvacuation_eq]
  refine List.filterMap_congr fun x hx => ?_
  simp [hx]

theorem sameKeys_filter (p : QueryEntry → Bool) : SameKeys fun x => if p x then some x else none := by
  intro e e' h
  dsimp only at h
  split at h <;> cases h
  exact ⟨rfl, rfl, rfl, rfl⟩

theorem table_queues_dropEntry (a : Addr) (tag : Tag) (s : State) :
    (TableInv s → TableInv (dropEntry a tag s)) ∧ (QueuesInv s → QueuesInv (dropEntry a tag s)) :=
  ⟨tableInv_filterMap (sameKeys_filter _) (filter_eq_filterMap _ _),
    queuesInv_filterMap (sameKeys_filter _) (filter_eq_filterMap _ _) rfl⟩

theorem table_queues_masks_evacuateEntry (e : QueryEntry) (s : State) :
    (TableInv s → TableInv (evacuateEntry e s)) ∧ (QueuesInv s → QueuesInv (evacuateEntry e s))
      ∧ (MasksInv s → MasksInv (evacuateEntry e s)) := by
  have told : ∀ f, StationKept (stationAt s e.addr) (f (stationAt s e.addr)) →
      (TableInv s → TableInv (dropEntry e.addr e.tag (updateStation e.addr f s)))
        ∧ (QueuesInv s → QueuesInv (dropEntry e.addr e.tag (updateStation e.addr f s)))
        ∧ (MasksInv s → MasksInv (dropEntry e.addr e.tag (updateStation e.addr f s))) := fun f kept => by
    have station : Keeps s (updateStation e.addr f s) := keeps_updateStation kept
    obtain ⟨table, queues⟩ := table_queues_dropEntry e.addr e.tag (updateStation e.addr f s)
    exact ⟨fun h => table (station.table h), fun h => queues (station.queues h), station.masks⟩
  unfold evacuateEntry
  split
  · exact told _ (stationKept_fillSlot _ _ _ _)
  · have keys : SameKeys fun x => some (if isEntry e.addr e.tag x then { x with state := .halting .evacuation } else x) := by
      rintro x _ ⟨⟩; split <;> exact ⟨rfl, rfl, rfl, rfl⟩
    exact ⟨tableInv_filterMap keys (map_eq_filterMap _ _), queuesInv_filterMap keys (map_eq_filterMap _ _) rfl, id⟩
  · exact told _ (stationKept_refuseReady _ _)
  · exact ⟨id, id, id⟩

theorem table_queues_masks_evacuateEntries (s : State) :
    (TableInv s → TableInv (evacuateEntries s)) ∧ (QueuesInv s → QueuesInv (evacuateEntries s))
      ∧ (MasksInv s → MasksInv (evacuateEntries s)) := by
  unfold evacuateEntries
  generalize s.qt.entries.filter isRoute = l
  induction l generalizing s with
  | nil => exact ⟨id, id, id⟩
  | cons e l ih =>
    obtain ⟨table, queues, masks⟩ := table_queues_masks_evacuateEntry e s
    obtain ⟨table', queues', masks'⟩ := ih (evacuateEntry e s)
    exact ⟨table' ∘ table, queues' ∘ queues, masks' ∘ masks⟩

theorem evacuateEntries_eq (s : State) : evacuateEntries s =
    { s with qt := (evacuateEntries s).qt, kl := (evacuateEntries s).kl } := by
  obtain ⟨h1, h2, h3, h4, h5, h6, h7, h8, h9, h10, h11, h12, h13, -⟩ := evacuateEntries_frame s
  cases hg : evacuateEntries s
  simp_all

theorem keeps_evacuateEntries (s : State) : Keeps s (evacuateEntries s) := by
  obtain ⟨table, queues, masks⟩ := table_queues_masks_evacuateEntries s
  have engine : EngineInv s → EngineInv (evacuateEntries s) := fun h => by
    have entries : (evacuateEntries s).qt = { entries := afterEvacuation s.qt.entries } :=
      congrArg QueryTable.mk (evacuateEntries_entries h.distinct)
    have kept := (keeps_queries (s := s) (sameKeys_evacuated (fun e => isRoute e = true)) fun _ e _ =>
      staysBusy_evacuated _ e).engine h
    rw [evacuateEntries_eq, entries, afterEvacuation_eq]
    exact { kept with }
  rw [evacuateEntries_eq] at table queues masks engine ⊢
  exact { engine := engine, table := table, queues := queues, masks := masks }

theorem keeps_evacuationEntry (s : State) : Keeps s (evacuationEntry s) := by
  unfold evacuationEntry
  refine .ite (fun _ => .refl s) fun _ => ?_
  have latched : Keeps s (raiseFlag evacChange { s with eu := { s.eu with latch := true } }) :=
    (keeps_unit (eu := { s.eu with latch := true }) (.inr (.inl ⟨rfl, rfl⟩)) rfl).trans (keeps_raiseFlag _ _)
  dsimp only
  split
  · exact latched
  · exact latched.trans (keeps_raiseGroups _ _)
  · exact ((latched.trans (keeps_raiseGroups _ _)).trans (keeps_evacuateEntries _)).trans (keeps_beginBuildIfDue _)

/-! ### The clear of the latch (R186) and the line (R179) -/

theorem busy_evacuationAnswer {e : QueryEntry} (h : evacuationAnswer e = true) : busy e = false := by
  unfold evacuationAnswer at h
  split at h
  · rename_i hs _; simp [busy, hs]
  · exact absurd h (by simp)

theorem keeps_clearLatch (s : State) : Keeps s (clearLatch s) := by
  unfold clearLatch
  dsimp only
  have cleared : Keeps s (raiseFlag evacChange
      { s with eu := { s.eu with latch := false, unit := .off }, qt := clearEntries s.qt }) :=
    ((keeps_unit (eu := { s.eu with latch := false, unit := .off }) (.inl rfl) rfl).trans
      (keeps_filterEntries (p := fun e => !evacuationAnswer e)
        fun _ e _ hp => busy_evacuationAnswer (by simpa using hp))).trans (keeps_raiseFlag _ _)
  split
  · exact cleared
  · exact cleared.trans (keeps_raiseGroups _ _)
  · exact cleared.trans (keeps_raiseGroups _ _)

theorem clearLatch_unit (s : State) : (clearLatch s).eu.unit = .off := by
  unfold clearLatch
  dsimp only
  split <;> simp

theorem keeps_evacuationClear (s : State) : Keeps s (evacuationClear s) :=
  .ite (fun _ => .refl s) fun _ => .ite
    (fun _ => (keeps_clearLatch s).trans (keeps_afterBuild (by simp [clearLatch_unit])))
    fun _ => (keeps_clearLatch s).trans (keeps_grant _)

theorem keeps_recogniseAsserted (s : State) : Keeps s (recogniseAsserted s) :=
  (keeps_line s true 0).trans (keeps_evacuationEntry _)

theorem keeps_recogniseReleased (s : State) : Keeps s (recogniseReleased s) :=
  .ite (fun _ => (keeps_line s false 0).trans (keeps_raiseFlag _ _)) fun _ => keeps_line s false 0

theorem keeps_sampleLine (asserted : Bool) (s : State) : Keeps s (sampleLine asserted s) :=
  .ite (fun _ => keeps_line s _ 0) fun _ => .ite (fun _ => keeps_line s _ _) fun _ =>
    .ite (fun _ => keeps_recogniseAsserted s) fun _ => keeps_recogniseReleased s

theorem keeps_treeSettle (s : State) : Keeps s (treeSettle s) := by
  unfold treeSettle
  split
  · exact .refl s
  · rename_i c n rest front
    exact keeps_control (ec := s.ec) (fun h => h.latch) (fun h => h.expiry) (fun h => h.turn) (fun h => h.build) fun h =>
      searchInv_relaxAll (fun m x => searchInv_relaxBackward _ _ _ m) _ (searchInv_settleFirst front h)

/-! ### The engines (R118, R126, R143, R156) -/

theorem freeHalted_eq (e : QueryEntry) (cause : HaltCause) (s : State) :
    ∃ u, freeHalted e cause s = dropEntry e.addr e.tag u ∧ Keeps s u ∧ u.qt = s.qt ∧ u.re = s.re ∧ u.fe = s.fe := by
  cases cause with
  | cancel =>
    cases hc : e.cancelSlot with
    | none =>
      exact ⟨_, by simp [freeHalted, hc, freeEntry]; rfl, keeps_updateStation (stationKept_releaseSlot _ _), rfl, rfl, rfl⟩
    | some place =>
      exact ⟨_, by simp [freeHalted, hc, freeEntry]; rfl,
        (keeps_updateStation (stationKept_fillSlot _ _ _ _)).trans (keeps_updateStation (stationKept_releaseSlot _ _)),
        rfl, rfl, rfl⟩
  | stationLeft => exact ⟨s, rfl, .refl s, rfl, rfl, rfl⟩
  | evacuation => exact ⟨_, rfl, keeps_updateStation (stationKept_fillSlot _ _ _ _), rfl, rfl, rfl⟩

theorem notBusy_dropped {a : Addr} {tag : Tag} {e : QueryEntry} (addr : e.addr = a) (htag : e.tag = tag) :
    NotBusy (fun x => if !isEntry a tag x then some x else none) e := by
  intro e' h
  simp [(isEntry_iff a tag e).2 ⟨addr, htag⟩] at h

theorem staysBusy_dropped {a : Addr} {tag : Tag} {e : QueryEntry} (other : ¬(e.addr = a ∧ e.tag = tag)) :
    StaysBusy (fun x => if !isEntry a tag x then some x else none) e := by
  have : isEntry a tag e = false := by simpa using mt (isEntry_iff a tag e).1 other
  exact ⟨fun h => by simp [this] at h, fun e' h => by simp [this] at h; rw [h]⟩

theorem keeps_haltRoute {s : State} {w : RouteWork} (cause : HaltCause) (work : s.re.work = some w) :
    Keeps s (haltRoute w cause s) := by
  unfold haltRoute
  split
  case h_2 => exact .refl s
  rename_i e found
  obtain ⟨-, addr, tag⟩ := findEntry_some found
  obtain ⟨u, eq, before, qt, re, -⟩ := freeHalted_eq e cause s
  refine .trans ?_ (keeps_afterRouteIdle _)
  have freed := keeps_routeFreed (s := u) (w := w) (x := { u.re.search with frontier := [] })
    (sameKeys_filter fun x => !isEntry e.addr e.tag x) (by rw [re, work])
    (fun _ x _ ha ht => notBusy_dropped (ha.trans addr.symm) (ht.trans tag.symm))
    (fun _ x _ other => staysBusy_dropped (by rwa [addr, tag])) (searchInv_discarded _)
  rw [← filter_eq_filterMap] at freed
  rw [eq]
  exact before.trans freed

theorem keeps_routeBoundary {s : State} {w : RouteWork} {f : State → State} (work : s.re.work = some w)
    (goes : Keeps s (f s)) : Keeps s (routeBoundary w f s) := by
  unfold routeBoundary
  split
  · exact keeps_haltRoute _ work
  · exact goes

theorem keeps_haltFind {s : State} {w : FindWork} (cause : HaltCause) (work : s.fe.work = some w) :
    Keeps s (haltFind w cause s) := by
  unfold haltFind
  split
  case h_2 => exact .refl s
  rename_i e found
  obtain ⟨-, addr, tag⟩ := findEntry_some found
  obtain ⟨u, eq, before, qt, -, fe⟩ := freeHalted_eq e cause s
  refine .trans ?_ (keeps_grant _)
  have freed := keeps_findFreed (s := u) (w := w)
    (sameKeys_filter fun x => !isEntry e.addr e.tag x) (by rw [fe, work])
    (fun _ x _ ha ht => notBusy_dropped (ha.trans addr.symm) (ht.trans tag.symm))
    (fun _ x _ other => staysBusy_dropped (by rwa [addr, tag]))
  rw [← filter_eq_filterMap] at freed
  rw [eq]
  exact before.trans freed

theorem keeps_findBoundary {s : State} {w : FindWork} {f : State → State} (work : s.fe.work = some w)
    (goes : Keeps s (f s)) : Keeps s (findBoundary w f s) := by
  unfold findBoundary
  split
  · exact keeps_haltFind _ work
  · exact goes

/-! ### Listings changed in place -/

/-- Listings whose names and entrances stand. -/
theorem keeps_listings {s : State} {g : Nat → Listing → Listing}
    (same : ∀ n l, (g n l).name = l.name ∧ (g n l).entrances = l.entrances) :
    Keeps s { s with ds := { s.ds with listings := tableMap g s.ds.listings } } where
  index h := by
    have key : ∀ n, nameOf { s.ds with listings := tableMap g s.ds.listings } n = nameOf s.ds n := fun n => by
      simp only [nameOf, tableGet_map, Option.map_map]
      cases tableGet s.ds.listings n <;> simp [same]
    exact
      { sorted := tableSorted_map h.sorted _
        ordered := by simpa only [key] using h.ordered
        holds := fun n => by rw [h.holds n]; simp [inUse] }
  graph h :=
    { h with
      entrances := fun p hp n hn => by
        obtain ⟨q, hq, rfl⟩ := List.mem_map.1 hp
        exact h.entrances q hq n ((same q.1 q.2).2 ▸ hn) }

theorem keeps_creditAnswer (h : RouteHeader) (s : State) : Keeps s (creditAnswer h s) := by
  unfold creditAnswer
  split
  · refine .ite (fun _ => keeps_listings fun n l => ?_) fun _ => .refl s
    split <;> exact ⟨rfl, rfl⟩
  · exact .refl s

/-! ### The end of FORMING -/

/-- An entry that its engine completes. -/
def readied (hold : Nat) (answer : Answer) (a : Addr) (tag : Tag) (x : QueryEntry) : QueryEntry :=
  if isEntry a tag x then { x with state := .ready hold, answer := some answer } else x

theorem sameKeys_readied (hold : Nat) (answer : Answer) (a : Addr) (tag : Tag) :
    SameKeys fun x => some (readied hold answer a tag x) := by
  rintro x _ ⟨⟩
  unfold readied
  split <;> exact ⟨rfl, rfl, rfl, rfl⟩

theorem notBusy_readied (hold : Nat) (answer : Answer) {a : Addr} {tag : Tag} {x : QueryEntry} (addr : x.addr = a)
    (htag : x.tag = tag) : NotBusy (fun x => some (readied hold answer a tag x)) x := by
  rintro _ ⟨⟩
  simp [readied, (isEntry_iff a tag x).2 ⟨addr, htag⟩, busy]

theorem staysBusy_readied (hold : Nat) (answer : Answer) {a : Addr} {tag : Tag} {x : QueryEntry}
    (other : ¬(x.addr = a ∧ x.tag = tag)) : StaysBusy (fun x => some (readied hold answer a tag x)) x := by
  have : isEntry a tag x = false := by simpa using mt (isEntry_iff a tag x).1 other
  exact ⟨nofun, by rintro _ ⟨⟩; simp [readied, this]⟩

theorem completeEntry_eq {s : State} {a : Addr} {tag : Tag} {e : QueryEntry} (found : findEntry s.qt a tag = some e)
    (answer : Answer) (message : Downstream) :
    completeEntry a tag answer message s =
      { updateStation a (fillSlot e.slot tag message) s with
        qt := { entries := s.qt.entries.map (readied s.config.holdTime answer a tag) } } := by
  unfold completeEntry
  rw [found]
  rfl

/-- A credit changes the listings alone, and reads nothing of the table and the engine. -/
theorem routeIdle_creditAnswer (h : RouteHeader) (v : State) (qt : QueryTable) :
    (creditAnswer h v).qt = v.qt ∧ (creditAnswer h v).re = v.re
      ∧ routeIdle (creditAnswer h { v with qt := qt }) =
        { creditAnswer h v with qt := qt, re := { work := none, search := { v.re.search with frontier := [] } } } := by
  unfold creditAnswer
  repeat' split
  all_goals exact ⟨rfl, rfl, rfl⟩

theorem keeps_finishRoute {s : State} {w : RouteWork} (work : s.re.work = some w) : Keeps s (finishRoute w s) := by
  unfold finishRoute
  split
  · exact .refl s
  rename_i e found
  dsimp only
  generalize formRoute s w (e.epoch.getD 0) = r
  refine .trans ?_ (keeps_afterRouteIdle _)
  let u := creditAnswer r.1 (updateStation w.addr (fillSlot e.slot w.tag (.routeReady r.1)) s)
  have before : Keeps s u := (keeps_updateStation (stationKept_fillSlot _ _ _ _)).trans (keeps_creditAnswer _ _)
  have credit := routeIdle_creditAnswer r.1 (updateStation w.addr (fillSlot e.slot w.tag (.routeReady r.1)) s)
  have qt : u.qt = s.qt := (credit s.qt).1
  have re : u.re = s.re := (credit s.qt).2.1
  have freed := keeps_routeFreed (s := u) (w := w) (x := { u.re.search with frontier := [] })
    (sameKeys_readied s.config.holdTime (.route r.1 r.2) w.addr w.tag) (by rw [re, work])
    (fun _ x _ ha ht => notBusy_readied _ _ ha ht) (fun _ x _ other => staysBusy_readied _ _ other) (searchInv_discarded _)
  rw [← map_eq_filterMap] at freed
  have eq : routeIdle (creditAnswer r.1 (completeEntry w.addr w.tag (.route r.1 r.2) (.routeReady r.1) s)) =
      { u with qt := { entries := u.qt.entries.map (readied s.config.holdTime (.route r.1 r.2) w.addr w.tag) }
               re := { work := none, search := { u.re.search with frontier := [] } } } := by
    rw [completeEntry_eq found, (credit _).2.2, qt, re]
    rfl
  rw [eq]
  exact before.trans freed

theorem keeps_finishFind {s : State} {w : FindWork} (work : s.fe.work = some w) : Keeps s (finishFind w s) := by
  unfold finishFind
  split
  · exact .refl s
  rename_i e found
  dsimp only
  generalize formFind s w (e.epoch.getD 0) = r
  refine .trans ?_ (keeps_grant _)
  have freed := keeps_findFreed (s := updateStation w.addr (fillSlot e.slot w.tag (.findReady r.1)) s) (w := w)
    (sameKeys_readied s.config.holdTime (.find r.1 r.2) w.addr w.tag) work
    (fun _ x _ ha ht => notBusy_readied _ _ ha ht) (fun _ x _ other => staysBusy_readied _ _ other)
  rw [← map_eq_filterMap] at freed
  rw [completeEntry_eq found]
  exact (keeps_updateStation (stationKept_fillSlot _ _ _ _)).trans freed

/-! ### The steps of the engines -/

theorem keeps_routeEnds {s : State} {w : RouteWork} (outcome : RouteStatus) (reached : Option Nat)
    (work : s.re.work = some w) : Keeps s (routeEnds outcome reached w s) := keeps_routeWork work rfl rfl id

theorem keeps_settleStep {s : State} {w : RouteWork} (work : s.re.work = some w) : Keeps s (settleStep w s) := by
  unfold settleStep
  split
  · exact .refl s
  rename_i c n rest front
  dsimp only
  refine .ite (fun _ => keeps_routeWork work rfl rfl (searchInv_settleFirst front)) fun _ =>
    keeps_routeWork work rfl rfl fun h => ?_
  exact searchInv_relaxAll (fun m x => searchInv_relaxForward _ _ _ _ m) _ (searchInv_settleFirst front h)

theorem keeps_searchStep {s : State} {w : RouteWork} (work : s.re.work = some w) : Keeps s (searchStep w s) := by
  unfold searchStep
  split
  · exact keeps_routeEnds _ _ work
  · exact keeps_routeBoundary work (keeps_settleStep work)

theorem keeps_walkStep {s : State} {w : RouteWork} (work : s.re.work = some w) : Keeps s (walkStep w s) := by
  unfold walkStep
  dsimp only
  refine .ite (fun _ => keeps_routeEnds _ _ work) fun _ => ?_
  split
  · exact keeps_routeEnds _ _ work
  · split
    · exact keeps_routeEnds _ _ work
    · exact keeps_routeWork work rfl rfl id

theorem keeps_inRoutePhase {s : State} {phase : RoutePhase} {f : RouteWork → State → State}
    (step : ∀ w, s.re.work = some w → Keeps s (f w s)) : Keeps s (inRoutePhase phase f s) := by
  unfold inRoutePhase
  split
  · exact .ite (fun _ => step _ ‹_›) fun _ => .refl s
  · exact .refl s

theorem keeps_scanListing {s : State} {w : FindWork} (n : Nat) (work : s.fe.work = some w) :
    Keeps s (scanListing w n s) := by
  unfold scanListing
  split
  · exact keeps_findWork work rfl rfl
  · exact .ite (fun _ => keeps_findWork work rfl rfl) fun _ => keeps_findWork work rfl rfl

theorem keeps_scanStep {s : State} {w : FindWork} (work : s.fe.work = some w) : Keeps s (scanStep w s) := by
  unfold scanStep
  split
  · exact keeps_findWork work rfl rfl
  · exact keeps_findBoundary work (keeps_scanListing _ work)

end Sys2Proof.Proofs
end

section
/-! What keeps the invariants of the kiosk link: stations that leave, the messages of a frame, replies and their requests,
and the commands that control the stations. -/

namespace Sys2Proof.Proofs
open Sys2Proof.Machine Sys2Proof.Safety Sys2Proof.Laws

/-! ### Leaving (R120, R169) -/

/-- The entries of the stations that `gone` names leave with them. -/
def leaving (gone : QueryEntry → Prop) [DecidablePred gone] (e : QueryEntry) : Option QueryEntry :=
  if gone e then leaveEntry e else some e

theorem sameKeys_leaving (gone : QueryEntry → Prop) [DecidablePred gone] : SameKeys (leaving gone) := by
  intro e e' h
  unfold leaving leaveEntry at h
  repeat' split at h
  all_goals cases h
  all_goals exact ⟨rfl, rfl, rfl, rfl⟩

theorem staysBusy_leaving (gone : QueryEntry → Prop) [DecidablePred gone] (e : QueryEntry) :
    StaysBusy (leaving gone) e := by
  unfold StaysBusy leaving leaveEntry busy
  by_cases h : gone e
  · simp only [h, if_true]
    cases e.state <;> simp
  · simp [h]

theorem keeps_leaving {s : State} (gone : QueryEntry → Prop) [DecidablePred gone] :
    Keeps s { s with qt := { entries := s.qt.entries.filterMap (leaving gone) } } :=
  keeps_queries (sameKeys_leaving gone) fun _ e _ => staysBusy_leaving gone e

theorem leaveEntries_eq (a : Addr) (qt : QueryTable) :
    leaveEntries a qt = { entries := qt.entries.filterMap (leaving fun e => e.addr = a) } := by
  simp only [leaveEntries, beq_iff_eq]
  rfl

theorem keeps_leave (a : Addr) (s : State) : Keeps s (leave a s) := by
  unfold leave
  refine .ite (fun _ => ?_) fun _ => .refl s
  dsimp only
  rw [leaveEntries_eq]
  exact (keeps_updateStation (stationKept_leftRecord _)).trans (keeps_leaving fun e => e.addr = a)

theorem stationAt_leave (a : Addr) (s : State) : stationAt (leave a s) a =
    if inService (stationAt s a) then leftRecord (stationAt s a) else stationAt s a := by
  unfold leave
  split
  · exact stationAt_updateStation_same s a leftRecord
  · rfl

theorem keeps_depart (a : Addr) (new : StationState) (s : State) : Keeps s (depart a new s) :=
  (keeps_leave a s).trans (keeps_changeState fun ok _ _ => by
    rw [stationAt_leave] at ok ⊢
    split
    · rfl
    · rename_i out
      rw [if_neg out] at ok
      exact ok.2 (by simpa using out))

theorem keeps_miss (faultLimit : Nat) (a : Addr) (s : State) : Keeps s (miss faultLimit a s) := by
  have counted : Keeps s (updateStation a (fun st => { st with misses := st.misses + 1 }) s) := keeps_updateStation {}
  exact .ite (fun _ => .ite (fun _ => counted.trans (keeps_depart a .faulted _)) fun _ => counted) fun _ => .refl s

/-! ### The messages of a frame -/

theorem keeps_startFrame (t : TrunkNo) (s : State) : Keeps s (startFrame t s) :=
  (keeps_updateTrunk t _ s).trans (keeps_mapStations fun _ => .ite (fun _ => stationKept_frameTick _) fun _ => .refl _)

theorem keeps_failAttempt {a : Addr} {s : State} (h : (stationAt s a).state = .resetting) :
    Keeps s (failAttempt a s) := by
  have counted : ∀ n, Keeps s (updateStation a (fun st => { st with attempts := n }) s) := fun _ => keeps_updateStation {}
  have out : ∀ n, inService (stationAt (updateStation a (fun st => { st with attempts := n }) s) a) = false := fun n => by
    simp [inService, h]
  exact .ite (fun _ => (counted _).trans (keeps_changeState_out (out _))) fun _ =>
    (counted 0).trans (keeps_changeState_out (out 0))

theorem keeps_sendNotice (t : TrunkNo) (n : StationNo) (s : State) : Keeps s (sendNotice t n s) :=
  (keeps_updateTrunk t _ s).trans (keeps_updateStation {})

theorem keeps_sendPoll (t : TrunkNo) (n : StationNo) (s : State) : Keeps s (sendPoll t n s) :=
  (keeps_updateTrunk t _ s).trans (keeps_putStation (stationKept_markCarried _))

theorem keeps_sendReset {t : TrunkNo} {n : StationNo} {s : State} (h : (trunkStation s t n).state = .attached) :
    Keeps s (sendReset t n s) := by
  have state : (stationAt s (addrOf t n)).state = .attached := h
  refine ((keeps_updateTrunk t _ s).trans (keeps_updateStation {})).trans (keeps_changeState_out ?_)
  simp [inService, state]

theorem keeps_sendProbe (t : TrunkNo) (n : StationNo) (s : State) : Keeps s (sendProbe t n s) := keeps_updateTrunk t _ s

theorem resetTarget_attached {s : State} {t : TrunkNo} {n : StationNo} (h : resetTarget s t = some n) :
    (trunkStation s t n).state = .attached := by simpa using List.find?_some h

/-! ### The requests of a station (R106, R115 to R117, R171) -/

theorem keeps_answerSlot (a : Addr) (place : Nat) (tag : Tag) (m : Downstream) (s : State) :
    Keeps s (answerSlot a place tag m s) := keeps_updateStation (stationKept_fillSlot place tag m _)

theorem keeps_refuseSlot (a : Addr) (place : Nat) (tag : Tag) (reason : LinkReason) (s : State) :
    Keeps s (refuseSlot a place tag reason s) := keeps_answerSlot a place tag _ s

theorem keeps_withSlot {a : Addr} {f : Nat → State → State} {s : State}
    (acts : ∀ (place : Nat) (u : State), place < (stationAt u a).nextPlace → Keeps u (f place u)) :
    Keeps s (withSlot a f s) := by
  refine .ite (fun _ => keeps_updateStation (stationKept_countOverrun _)) fun room => ?_
  refine (keeps_updateStation (stationKept_appendSlot (by simpa [slotsFull] using room) none)).trans (acts _ _ ?_)
  simp [appendSlot]

theorem admissionRefusal_none {s : State} {a : Addr} {tag : Tag} {q : Query} (h : admissionRefusal s a tag q = none) :
    findEntry s.qt a tag = none ∧ liveCount s.qt a < 2 ∧ s.qt.entries.length < 32 := by
  unfold admissionRefusal at h
  repeat' split at h
  all_goals simp_all

theorem keeps_admission {a : Addr} {tag : Tag} {query : Option Query} {place : Nat} {s : State}
    (given : place < (stationAt s a).nextPlace) : Keeps s (admission a tag query place s) := by
  unfold admission
  refine .ite (fun _ => keeps_refuseSlot _ _ _ _ _) fun _ => ?_
  split
  · exact keeps_refuseSlot _ _ _ _ _
  · split
    · exact keeps_refuseSlot _ _ _ _ _
    · obtain ⟨free, each, size⟩ := admissionRefusal_none ‹_›
      exact (keeps_append (e := newEntry a tag _ place) rfl free size each given).trans (keeps_grant _)

/-- The entry that stands for a station and tag is not with its engine. -/
theorem idle_of_found {s : State} {a : Addr} {tag : Tag} {e : QueryEntry} (found : findEntry s.qt a tag = some e)
    (idle : busy e = false) (h : EngineInv s) : ∀ x ∈ s.qt.entries, isEntry a tag x = true → busy x = false :=
  fun _ hx same => eq_of_isEntry h.distinct found hx same ▸ idle

theorem keeps_freeFound {s : State} {a : Addr} {tag : Tag} {e : QueryEntry} (found : findEntry s.qt a tag = some e)
    (idle : busy e = false) : Keeps s (freeEntry e s) := by
  obtain ⟨-, rfl, rfl⟩ := findEntry_some found
  exact keeps_freeEntry (idle_of_found found idle)

theorem keeps_servePage (a : Addr) (tag : Tag) (n place : Nat) (s : State) : Keeps s (servePage a tag n place s) := by
  unfold servePage
  split
  · exact keeps_refuseSlot _ _ _ _ _
  · rename_i e found
    split
    · rename_i hs _
      refine .ite (fun _ => keeps_refuseSlot _ _ _ _ _) fun _ => .trans ?_ (keeps_answerSlot _ _ _ _ _)
      refine keeps_updateEntry (fun _ => ⟨rfl, rfl, rfl, rfl⟩) fun h x hx same => ?_
      rw [eq_of_isEntry h.distinct found hx same]
      simp [busy, hs]
    · exact keeps_refuseSlot _ _ _ _ _

theorem keeps_cancelEntry (a : Addr) (tag : Tag) (place : Nat) (s : State) : Keeps s (cancelEntry a tag place s) := by
  unfold cancelEntry
  split
  · exact keeps_refuseSlot _ _ _ _ _
  · rename_i e found
    split
    · exact (keeps_freeFound found (by simp [busy, *])).trans (keeps_answerSlot _ _ _ _ _)
    · exact (keeps_freeFound found (by simp [busy, *])).trans (keeps_answerSlot _ _ _ _ _)
    · refine keeps_updateEntry (fun _ => ⟨rfl, rfl, rfl, rfl⟩) fun h x hx same => ?_
      rw [eq_of_isEntry h.distinct found hx same]
      simp [busy, *]
    · exact keeps_refuseSlot _ _ _ _ _

theorem keeps_releaseEntry (a : Addr) (tag : Tag) (s : State) : Keeps s (releaseEntry a tag s) := by
  unfold releaseEntry
  split
  · rename_i e found
    split
    · exact keeps_freeFound found (by simp [busy, *])
    all_goals exact .refl s
  · exact .refl s

theorem keeps_inServiceOnly {a : Addr} {tag : Tag} {f : Nat → State → State} {place : Nat} {s : State}
    (acts : Keeps s (f place s)) : Keeps s (inServiceOnly a tag f place s) :=
  .ite (fun _ => keeps_refuseSlot _ _ _ _ _) fun _ => acts

theorem keeps_takeRequest (a : Addr) (tag : Tag) (type : RequestType) (params : List Byte) (s : State) :
    Keeps s (takeRequest a tag type params s) := by
  cases type
  case find => exact keeps_withSlot fun _ _ => keeps_admission
  case browse => exact keeps_withSlot fun _ _ => keeps_admission
  case route => exact keeps_withSlot fun _ _ => keeps_admission
  case page => exact keeps_withSlot fun _ _ _ => keeps_inServiceOnly (keeps_servePage _ _ _ _ _)
  case cancel => exact keeps_withSlot fun _ _ _ => keeps_inServiceOnly (keeps_cancelEntry _ _ _ _)
  case release => exact keeps_releaseEntry _ _ _
  case seen =>
    exact keeps_updateStation (f := fun st => { st with pendingMask := st.pendingMask &&& ~~~groupsOf (wordAt params 0) })
      (stationKept_seen _ _)
  case sleep => exact keeps_changeState_in (.inr rfl)
  case wake => exact keeps_changeState_in (.inl rfl)

/-! ### Replies (R165 to R168) -/

theorem keeps_pollRequest (a : Addr) (tag : Tag) (payload : List Byte) (s : State) :
    Keeps s (pollRequest a tag payload s) := by
  unfold pollRequest
  split
  · exact .refl s
  · split
    · exact .refl s
    · refine .trans ?_ (keeps_takeRequest _ _ _ _ _)
      have acknowledged : Keeps s (updateStation a acknowledge s) := keeps_updateStation (stationKept_acknowledge _)
      exact .ite (fun _ => acknowledged) fun _ => acknowledged.trans (keeps_changeState_in (.inl rfl))

theorem updateStation_updateStation (a : Addr) (f g : Station → Station) (s : State) :
    updateStation a g (updateStation a f s) = updateStation a (fun st => g (f st)) s := by
  unfold updateStation
  rw [stationAt_putStation_same]
  simp [putStation]

theorem keeps_enableStation {a : Addr} {s : State} (h : (stationAt s a).state = .resetting) :
    Keeps s (enableStation a s) := by
  refine .ite (fun _ => ?_) fun _ => .refl s
  rw [changeState_new _ (by simp [enabledRecord, h]), updateStation_updateStation]
  exact (keeps_updateStation (stationKept_enabled _ true)).trans (keeps_raiseFlag _ _)

theorem keeps_pollReply (a : Addr) (r : StationReply) (s : State) : Keeps s (pollReply a r s) := by
  unfold pollReply
  have answered : Keeps s (match r with
      | .empty => updateStation a acknowledge s
      | .request tag payload => pollRequest a tag payload s
      | .ready => depart a .attached s) := by
    cases r
    · exact keeps_updateStation (stationKept_acknowledge _)
    · exact keeps_depart _ _ _
    · exact keeps_pollRequest _ _ _ _
  split
  · exact answered
  · exact answered
  · split
    · exact keeps_enableStation ‹_›
    all_goals exact .refl s
  all_goals exact .refl s

theorem keeps_probeAnswered (a : Addr) (s : State) : Keeps s (probeAnswered a s) := by
  unfold probeAnswered
  split
  · exact keeps_changeState_out (by simp [inService, *])
  · exact keeps_changeState_out (by simp [inService, *])
  all_goals exact .refl s

theorem keeps_endWith (t : TrunkNo) (x : Exchange) (bits : Nat) (content : Option StationReply) (s : State) :
    Keeps s (endWith t x bits content s) := by
  have ended : Keeps s (endExchange t bits s) := keeps_updateTrunk t _ s
  unfold endWith
  refine .ite (fun _ => ended) fun _ => ?_
  split
  · exact ended.trans (keeps_probeAnswered _ _)
  · exact ended
  · exact ended.trans (keeps_pollReply _ _ _)
  · exact ended.trans (keeps_miss _ _ _)

theorem keeps_closeWindow (t : TrunkNo) (s : State) : Keeps s (closeWindow t s) := by
  unfold closeWindow
  split
  · exact keeps_endWith _ _ _ _ _
  · exact .refl s

theorem keeps_takeReply (t : TrunkNo) (delay length : Nat) (content : StationNo → Option StationReply) (s : State) :
    Keeps s (takeReply t delay length content s) := by
  refine .ite (fun _ => keeps_closeWindow t s) fun _ => ?_
  split
  · exact keeps_endWith _ _ _ _ _
  · exact .refl s

theorem keeps_takeContent (t : TrunkNo) (delay : Nat) (r : StationReply) (s : State) :
    Keeps s (takeContent t delay r s) := keeps_takeReply _ _ _ _ _

theorem keeps_takeBytes (t : TrunkNo) (delay : Nat) (message : List Byte) (s : State) :
    Keeps s (takeBytes t delay message s) :=
  .ite (fun _ => keeps_takeReply _ _ _ _ _) fun _ => keeps_closeWindow t s

/-! ### Station control (R175, R176) -/

theorem keeps_disable (a : Addr) (s : State) : Keeps s (disable a s) := by
  unfold disable
  refine .trans (.trans (.ite (fun _ => .refl s) fun _ => ?_) (keeps_depart a .disabled _)) (keeps_updateTrunk _ _ _)
  exact keeps_updateStation (f := fun st => { st with misses := 0, attempts := 0, countdown := 0 }) {}

theorem leaveTrunk_eq (s : State) (t : TrunkNo) : leaveTrunk s t =
    { entries := s.qt.entries.filterMap
        (leaving fun e => trunkOf e.addr = t ∧ inService (stationAt s e.addr) = true) } := rfl

theorem keeps_resetTrunk (t : TrunkNo) (s : State) : Keeps s (resetTrunk t s) := by
  unfold resetTrunk
  dsimp only
  refine .trans ?_ (keeps_updateTrunk _ _ _)
  rw [leaveTrunk_eq]
  have stations := (keeps_leaving (s := s) fun e => trunkOf e.addr = t ∧ inService (stationAt s e.addr) = true).trans
    (keeps_mapStations (f := fun a st => if trunkOf a = t then trunkResetRecord st else st)
      fun _ => .ite (fun _ => stationKept_trunkResetRecord _) fun _ => .refl _)
  exact .ite (fun _ => stations.trans (keeps_raiseFlag _ _)) fun _ => stations

/-! ### RESTART SERVICE (R195) -/

/-- The Load Monitor after a restart. -/
theorem loadInv_restarted {s t : State} (lm : t.lm = restartedMonitor s.lm) (wg : t.wg = s.wg) (h : LoadInv s) :
    LoadInv t where
  sorted := by rw [lm]; exact tableSorted_map h.sorted fun _ e => restartEntry e
  keys := by rw [lm, wg]; exact (tableMap_keys (fun _ e => restartEntry e) _).trans h.keys
  count := by
    rw [lm]
    simp [restartedMonitor, congestedEntries, tableMap, restartEntry, newLoadEntry, List.filter_map, Function.comp_def]
  live := by
    rw [lm]
    intro p hp
    obtain ⟨q, -, rfl⟩ := List.mem_map.1 hp
    exact ⟨Nat.le_refl 16, by simp [restartEntry, newLoadEntry]⟩
  sampled := by rw [wg]; exact h.sampled

theorem keeps_restart (s : State) : Keeps s (restart s) := by
  have restarted : Keeps s
      { s with
        service := .starting
        lm := restartedMonitor s.lm
        ec := restartedController s.ec
        qt := { entries := [] }
        re := { s.re with work := none }
        fe := { work := none }
        eu := { s.eu with unit := .off }
        kl := { stations := mapBank (fun _ st => absentRecord st) s.kl.stations
                trunks := mapBank (fun _ k => voidMoved s k) s.kl.trunks } } :=
    { engine := fun _ =>
        { latch := fun _ => rfl
          distinct := List.Pairwise.nil
          route := by simp
          find := by simp
          routeWork := nofun
          findWork := nofun
          expiry := by simp [restartedController]
          turn := fun _ => ⟨rfl, rfl⟩
          build := nofun }
      table := fun _ => { size := by simp, each := by simp [liveCount], distinct := List.Pairwise.nil }
      queues := fun h =>
        { slots := ((keeps_mapStations (f := fun _ st => absentRecord st) fun _ => stationKept_absentRecord _).queues h).slots
          entries := by simp }
      masks := fun h => (keeps_mapStations (f := fun _ st => absentRecord st) fun _ => stationKept_absentRecord _).masks h
      load := loadInv_restarted rfl rfl }
  unfold restart
  dsimp only
  exact .ite (fun _ => restarted.trans (keeps_raiseFlag _ _)) fun _ => restarted

/-! ### A full reset (R194) -/

theorem stationAt_reset (a : Addr) : stationAt State.reset a = Station.initial :=
  Vector.getElem_replicate _

theorem engineInv_reset : EngineInv State.reset where
  latch _ := rfl
  distinct := List.Pairwise.nil
  route := by simp [State.reset]
  find := by simp [State.reset]
  routeWork := by simp [State.reset]
  findWork := by simp [State.reset]
  expiry := by simp [State.reset]
  turn _ := ⟨rfl, rfl⟩
  build := by simp [State.reset]

theorem tableInv_reset : TableInv State.reset where
  size := by simp [State.reset]
  each _ := by simp [State.reset, liveCount]
  distinct := List.Pairwise.nil

theorem queuesInv_reset : QueuesInv State.reset where
  slots a := by
    rw [stationAt_reset]
    exact { size := by simp [Station.initial], rising := List.Pairwise.nil, below := by simp [Station.initial],
            single := by simp [Station.initial], filled := by simp [Station.initial] }
  entries := by simp [State.reset]

theorem masksInv_reset : MasksInv State.reset := fun a => by rw [stationAt_reset]; exact maskOk_of_zero rfl

theorem loadInv_reset : LoadInv State.reset where
  sorted := List.Pairwise.nil
  keys := rfl
  count := rfl
  live := by simp [State.reset]
  sampled := by simp [State.reset]

theorem indexInv_reset : IndexInv State.reset where
  sorted := List.Pairwise.nil
  ordered := List.Pairwise.nil
  holds n := by simp [State.reset, inUse]

theorem graphInv_reset : GraphInv State.reset where
  staged := by simp [State.reset]
  scheduled := by simp [State.reset]
  config := by decide
  nodes := List.Pairwise.nil
  segments := List.Pairwise.nil
  numbers := by simp [State.reset]
  adjacency := by simp [State.reset]
  degree := by simp [State.reset]
  ends := by simp [State.reset]
  floors := by simp [State.reset]
  entrances := by simp [State.reset]
  homes a n h := by
    have : State.reset.wg.homes[a] = none := Vector.getElem_replicate _
    rw [this] at h; cases h

theorem frontiersInv_reset : FrontiersInv State.reset := ⟨searchInv_empty, searchInv_empty⟩

theorem stageInv_reset : StageInv State.reset where
  queue := by simp [State.reset]
  seq := by decide
  staged := by simp [State.reset]
  schedule := by simp [State.reset]
  ordered := List.Pairwise.nil
  numbers := List.Pairwise.nil
  entries := by simp [State.reset]
  clock := by decide

/-- A full reset meets every invariant; the search is kept, without a work record (R146). -/
theorem keeps_fullReset (s : State) : Keeps s (fullReset s) where
  engine _ := { engineInv_reset with }
  table _ := { tableInv_reset with }
  queues _ := { queuesInv_reset with }
  masks _ := masksInv_reset
  load _ := { loadInv_reset with }
  index _ := { indexInv_reset with }
  graph _ := { graphInv_reset with }
  frontiers h := ⟨h.search, searchInv_empty⟩
  stage _ := { stageInv_reset with }

end Sys2Proof.Proofs
end

section
/-! The Change Stage: what one pass over the scheduled list moves and leaves (R56), the place and the number of a new entry
(R53), and what keeps the invariants of the staged queue, the list and the clock. -/

namespace Sys2Proof.Proofs
open Sys2Proof.Machine Sys2Proof.Safety Sys2Proof.Laws

/-! ### One pass over the list (R56) -/

/-- What a pass makes of an entry that stays: DUE when it was served. -/
def stayed (served : Scheduled → Bool) (e : Scheduled) : Scheduled := if served e then { e with due := true } else e

/-- All that a pass over `l` makes of what was served before it. -/
structure Passed (served : Scheduled → Bool) (l : List Scheduled) (r r' : Served) : Prop where
  edits : r'.cs.queue.map Staged.edit = r.cs.queue.map Staged.edit
    ++ ((l.filter served).take (64 - r.cs.queue.length)).map Scheduled.edit
  nextSeq : r.cs.nextSeq < 65536 →
    r'.cs.nextSeq = (r.cs.nextSeq + min (64 - r.cs.queue.length) (l.filter served).length) % 65536
  seqs : r.cs.nextSeq < 65536 → r'.cs.queue.map Staged.seq = r.cs.queue.map Staged.seq
    ++ (List.range (min (64 - r.cs.queue.length) (l.filter served).length)).map fun i => (r.cs.nextSeq + i) % 65536
  clock : r'.cs.clock = r.cs.clock
  room : (l.filter served).length ≤ 64 - r.cs.queue.length →
    r'.cs.schedule = r.cs.schedule ++ l.filter fun e => !served e
  full : 64 ≤ r.cs.queue.length → r'.cs.schedule = r.cs.schedule ++ l.map (stayed served)
  urgent : r'.urgent = (r.urgent || ((l.filter served).take (64 - r.cs.queue.length)).any fun e => e.urgent)
  becameDue : r'.becameDue = (r.becameDue || ((l.filter served).drop (64 - r.cs.queue.length)).any fun e => !e.due)

theorem serveEntry_not_served {served : Scheduled → Bool} {e : Scheduled} (h : served e = false) (r : Served) :
    serveEntry served r e = { r with cs := { r.cs with schedule := r.cs.schedule ++ [e] } } := by simp [serveEntry, h]

theorem serveEntry_full {served : Scheduled → Bool} {e : Scheduled} (h : served e = true) {r : Served}
    (full : 64 ≤ r.cs.queue.length) : serveEntry served r e =
      { r with cs := { r.cs with schedule := r.cs.schedule ++ [{ e with due := true }] }
               becameDue := r.becameDue || !e.due } := by
  simp [serveEntry, h, queueFull, stagedCapacity, full]

theorem serveEntry_room {served : Scheduled → Bool} {e : Scheduled} (h : served e = true) {r : Served}
    (room : r.cs.queue.length < 64) : serveEntry served r e =
      { r with cs := enqueue e.edit r.cs, urgent := r.urgent || e.urgent } := by
  simp [serveEntry, h, queueFull, stagedCapacity, Nat.not_le.2 room]

theorem foldl_serveEntry (served : Scheduled → Bool) (l : List Scheduled) (r : Served) :
    Passed served l r (l.foldl (serveEntry served) r) := by
  induction l generalizing r with
  | nil => constructor <;> simp +contextual [Nat.mod_eq_of_lt]
  | cons e l ih =>
    rw [List.foldl_cons]
    by_cases h : served e = true
    · by_cases full : 64 ≤ r.cs.queue.length
      · have none_left : 64 - r.cs.queue.length = 0 := by omega
        have later := ih (serveEntry served r e)
        rw [serveEntry_full h full] at later ⊢
        exact
          { edits := by simpa [none_left] using later.edits
            nextSeq := by simpa [none_left] using later.nextSeq
            seqs := by simpa [none_left] using later.seqs
            clock := later.clock
            room := fun small => by simp [h, none_left] at small
            full := fun _ => by simpa [stayed, h] using later.full full
            urgent := by simpa [none_left] using later.urgent
            becameDue := by simpa [none_left, h, Bool.or_assoc] using later.becameDue }
      · have less : r.cs.queue.length < 64 := by omega
        obtain ⟨k, hk⟩ : ∃ k, 64 - r.cs.queue.length = k + 1 := ⟨64 - r.cs.queue.length - 1, by omega⟩
        have hk' : 64 - (r.cs.queue.length + 1) = k := by omega
        have later := ih (serveEntry served r e)
        rw [serveEntry_room h less] at later ⊢
        have next_lt : (r.cs.nextSeq + 1) % 65536 < 65536 := Nat.mod_lt _ (by decide)
        exact
          { edits := by simpa [enqueue, h, hk, hk'] using later.edits
            nextSeq := fun _ => by
              rw [later.nextSeq next_lt, hk, List.filter_cons_of_pos h, List.length_cons]
              simp only [enqueue, List.length_append, List.length_singleton, hk']
              omega
            seqs := fun lt => by
              rw [later.seqs next_lt, hk, List.filter_cons_of_pos h, List.length_cons, Nat.succ_min_succ,
                List.range_succ_eq_map]
              simp only [enqueue, List.length_append, List.length_singleton, hk', List.map_append, List.map_nil,
                List.append_assoc, List.singleton_append, List.map_cons, List.map_map, Nat.add_zero,
                Nat.mod_eq_of_lt lt]
              congr 2
              refine List.map_congr_left fun i _ => ?_
              simp only [Function.comp_apply]
              omega
            clock := later.clock
            room := fun small => by
              simp only [List.filter_cons_of_pos h, List.length_cons, hk] at small
              simpa [enqueue, h] using later.room (by simp [enqueue, hk']; omega)
            full := fun h => absurd h full
            urgent := by simpa [enqueue, h, hk, hk', Bool.or_assoc] using later.urgent
            becameDue := by simpa [enqueue, h, hk, hk'] using later.becameDue }
    · have h : served e = false := by simpa using h
      have later := ih (serveEntry served r e)
      rw [serveEntry_not_served h] at later ⊢
      exact
        { edits := by simpa [h] using later.edits
          nextSeq := by simpa [h] using later.nextSeq
          seqs := by simpa [h] using later.seqs
          clock := later.clock
          room := fun small => by simpa [h] using later.room (by simpa [h] using small)
          full := fun full => by simpa [stayed, h] using later.full full
          urgent := by simpa [h] using later.urgent
          becameDue := by simpa [h] using later.becameDue }

/-- The list is cut where the queue is full: those before the cut leave it when they are served, those after it stay. -/
theorem foldl_serveEntry_cut {served : Scheduled → Bool} {before after : List Scheduled} {r : Served}
    (fills : (before.filter served).length = 64 - r.cs.queue.length) :
    ((before ++ after).foldl (serveEntry served) r).cs.schedule =
      r.cs.schedule ++ before.filter (fun e => !served e) ++ after.map (stayed served) := by
  have first := foldl_serveEntry served before r
  have length : (before.foldl (serveEntry served) r).cs.queue.length =
      r.cs.queue.length + (64 - r.cs.queue.length) := by
    have := congrArg List.length first.edits
    simpa [fills] using this
  rw [List.foldl_append, (foldl_serveEntry served after _).full (by omega), first.room (by omega)]

theorem servePass_passed (served : Scheduled → Bool) (cs : ChangeStage) : Passed served cs.schedule
    { cs := { cs with schedule := [] }, urgent := false, becameDue := false } (servePass served cs) :=
  foldl_serveEntry served cs.schedule _

/-- Settles O21: the fold of the pass, entry by entry, with the list cut where the queue is full. -/
theorem passServesInOrder : Obligations.PassServesInOrder := by
  intro served cs seq
  have pass := servePass_passed served cs
  refine ⟨pass.edits, pass.seqs seq, pass.nextSeq seq, pass.clock, fun h => by simpa using pass.room h, ?_,
    by simpa using pass.urgent, by simpa using pass.becameDue⟩
  intro before after cut fills
  have := foldl_serveEntry_cut (served := served) (before := before) (after := after)
    (r := { cs := { cs with schedule := [] }, urgent := false, becameDue := false }) fills
  rw [← cut] at this
  exact this

/-- Any list can be cut where so many that pass a test have come, or holds no more than so many. -/
theorem exists_cut {α : Type} (p : α → Bool) (n : Nat) (l : List α) :
    (l.filter p).length ≤ n ∨ ∃ before after, l = before ++ after ∧ (before.filter p).length = n := by
  induction l generalizing n with
  | nil => exact .inl (Nat.zero_le n)
  | cons x l ih =>
    by_cases h : p x = true
    · cases n with
      | zero => exact .inr ⟨[], x :: l, rfl, rfl⟩
      | succ n =>
        rcases ih n with few | ⟨before, after, rfl, length⟩
        · exact .inl (by simp [h, few])
        · exact .inr ⟨x :: before, after, rfl, by simp [h, length]⟩
    · rcases ih n with few | ⟨before, after, rfl, length⟩
      · exact .inl (by simpa [h] using few)
      · exact .inr ⟨x :: before, after, rfl, by simpa [h] using length⟩

/-- The entries left by a pass are entries of the list in their order, of which some have become DUE. -/
theorem servePass_schedule (served : Scheduled → Bool) (cs : ChangeStage) :
    ∃ (kept : List Scheduled) (f : Scheduled → Scheduled), kept.Sublist cs.schedule ∧ (servePass served cs).cs.schedule = kept.map f
      ∧ ∀ e : Scheduled, ∃ due, f e = { e with due := due } := by
  have stays : ∀ e, ∃ due, stayed served e = { e with due := due } := fun e => by
    unfold stayed
    split
    · exact ⟨true, rfl⟩
    · exact ⟨e.due, rfl⟩
  have pass := servePass_passed served cs
  rcases exists_cut served (64 - cs.queue.length) cs.schedule with few | ⟨before, after, cut, length⟩
  · exact ⟨_, id, List.filter_sublist, by simpa using pass.room few, fun e => ⟨e.due, rfl⟩⟩
  · have := foldl_serveEntry_cut (served := served) (before := before) (after := after)
      (r := { cs := { cs with schedule := [] }, urgent := false, becameDue := false }) length
    rw [← cut] at this
    refine ⟨before.filter (fun e => !served e) ++ after, stayed served, ?_, ?_, stays⟩
    · rw [cut]; exact List.filter_sublist.append (List.Sublist.refl _)
    · have same : (before.filter fun e => !served e).map (stayed served) = before.filter fun e => !served e := by
        conv_rhs => rw [← List.map_id (before.filter _)]
        refine List.map_congr_left fun e he => ?_
        have : served e = false := by simpa using (List.mem_filter.1 he).2
        simp [stayed, this]
      rw [List.map_append, same]
      simpa [servePass] using this

/-! ### The invariants of the Change Stage -/

/-- Every edit that waits meets its form conditions (R3, R38, R49). -/
def EditsFormed (cs : ChangeStage) : Prop :=
  (∀ x ∈ cs.queue, editFormed x.edit = true) ∧ ∀ e ∈ cs.schedule, editFormed e.edit = true

theorem keeps_stage {s : State} {cs : ChangeStage} (stage : StageInv s → StageInv { s with cs := cs })
    (formed : EditsFormed s.cs → EditsFormed cs) : Keeps s { s with cs := cs } where
  stage := stage
  graph h :=
    { h with staged := (formed ⟨h.staged, h.scheduled⟩).1, scheduled := (formed ⟨h.staged, h.scheduled⟩).2 }

theorem servePass_formed (served : Scheduled → Bool) {cs : ChangeStage} (h : EditsFormed cs) :
    EditsFormed (servePass served cs).cs := by
  obtain ⟨kept, f, sub, schedule, marked⟩ := servePass_schedule served cs
  refine ⟨fun x hx => ?_, fun e he => ?_⟩
  · have mem : x.edit ∈ (servePass served cs).cs.queue.map Staged.edit := List.mem_map_of_mem hx
    rw [(servePass_passed served cs).edits, List.mem_append] at mem
    rcases mem with old | new
    · obtain ⟨y, hy, eq⟩ := List.mem_map.1 old
      exact eq ▸ h.1 y hy
    · obtain ⟨y, hy, eq⟩ := List.mem_map.1 new
      exact eq ▸ h.2 y (List.mem_filter.1 (List.mem_of_mem_take hy)).1
  · rw [schedule] at he
    obtain ⟨y, hy, rfl⟩ := List.mem_map.1 he
    obtain ⟨due, eq⟩ := marked y
    rw [eq]
    exact h.2 y (sub.mem hy)

theorem servePass_stageInv {s : State} (served : Scheduled → Bool) (h : StageInv s) :
    StageInv { s with cs := (servePass served s.cs).cs } := by
  obtain ⟨kept, f, sub, schedule, marked⟩ := servePass_schedule served s.cs
  have pass := servePass_passed served s.cs
  have number : ∀ e, (f e).number = e.number := fun e => by obtain ⟨_, eq⟩ := marked e; rw [eq]
  have minute : ∀ e, (f e).minute = e.minute := fun e => by obtain ⟨_, eq⟩ := marked e; rw [eq]
  exact
    { queue := by
        have := congrArg List.length pass.edits
        simp only [List.length_append, List.length_map, List.length_take] at this
        have := h.queue
        show (servePass served s.cs).cs.queue.length ≤ 64
        omega
      seq := by rw [pass.nextSeq h.seq]; exact Nat.mod_lt _ (by decide)
      staged := fun x hx => by
        have mem : x.seq ∈ (servePass served s.cs).cs.queue.map Staged.seq := List.mem_map_of_mem hx
        rw [pass.seqs h.seq, List.mem_append] at mem
        rcases mem with old | new
        · obtain ⟨y, hy, eq⟩ := List.mem_map.1 old
          exact eq ▸ h.staged y hy
        · obtain ⟨i, -, eq⟩ := List.mem_map.1 new
          exact eq ▸ Nat.mod_lt _ (by decide)
      schedule := by
        show (servePass served s.cs).cs.schedule.length ≤ 32
        rw [schedule, List.length_map]
        exact sub.length_le.trans h.schedule
      ordered := by
        show (servePass served s.cs).cs.schedule.Pairwise _
        rw [schedule, List.pairwise_map]
        simpa only [minute] using h.ordered.sublist sub
      numbers := by
        show (servePass served s.cs).cs.schedule.Pairwise _
        rw [schedule, List.pairwise_map]
        simpa only [number] using h.numbers.sublist sub
      entries := fun e he => by
        have he : e ∈ (servePass served s.cs).cs.schedule := he
        rw [schedule] at he
        obtain ⟨y, hy, rfl⟩ := List.mem_map.1 he
        rw [number, minute]
        exact h.entries y (sub.mem hy)
      clock := by rw [pass.clock]; exact h.clock }

theorem keeps_passOf (served : Scheduled → Bool) (s : State) : Keeps s (passOf served s).1 := by
  have pass : Keeps s { s with cs := (servePass served s.cs).cs } :=
    keeps_stage (servePass_stageInv served) (servePass_formed served)
  exact .ite (fun _ => pass.trans (keeps_raiseFlag _ _)) fun _ => pass

theorem keeps_serveSchedule (reached : Nat → Bool) (s : State) : Keeps s (serveSchedule reached s).1 :=
  (keeps_passOf _ s).trans (keeps_passOf _ _)

theorem stageInv_clock {s : State} {clock : Clock} (range : clock.minute ≤ 1439 ∧ clock.seconds ≤ 59) (h : StageInv s) :
    StageInv { s with cs := { s.cs with clock := clock } } := { h with clock := range }

theorem keeps_clock {s : State} {clock : Clock}
    (range : StageInv s → clock.minute ≤ 1439 ∧ clock.seconds ≤ 59) :
    Keeps s { s with cs := { s.cs with clock := clock } } :=
  keeps_stage (fun h => stageInv_clock (range h) h) id

theorem keeps_minuteEvent (s : State) : Keeps s (minuteEvent s) := by
  unfold minuteEvent
  dsimp only
  refine .trans (.trans ?_ (keeps_serveSchedule _ _)) (keeps_requestIf _ _)
  refine (keeps_clock (s := s) (clock := { s.cs.clock with minute := nextMinute s.cs.clock.minute, seconds := 0 })
    fun h => ⟨?_, Nat.zero_le _⟩).trans (keeps_controller rfl id)
  have := h.clock.1
  simp only [nextMinute]
  split <;> omega

theorem keeps_setTime {n : Nat} (range : n ≤ 1439) (s : State) : Keeps s (setTime n s) := by
  have written : Keeps s { s with cs := { s.cs with clock := { set := true, minute := n, seconds := 0 } } } :=
    keeps_clock fun _ => ⟨range, Nat.zero_le _⟩
  exact .ite (fun _ => (written.trans (keeps_serveSchedule _ _)).trans (keeps_requestIf _ _)) fun _ => written

theorem keeps_tickClock (s : State) : Keeps s (tickClock s) :=
  .ite (fun _ => .ite (fun _ => keeps_minuteEvent s) fun less => keeps_clock fun h => ⟨h.clock.1, by
    show s.cs.clock.seconds + 1 ≤ 59; omega⟩) fun _ => .refl s

theorem keeps_enqueue {s : State} {edit : Edit} (room : queueFull s.cs = false) (formed : editFormed edit = true) :
    Keeps s { s with cs := enqueue edit s.cs } := by
  have less : s.cs.queue.length < 64 := by simpa [queueFull] using room
  refine keeps_stage (fun h => ?_) fun h => ⟨?_, h.2⟩
  · exact
      { h with
        queue := by simpa [enqueue] using less
        seq := Nat.mod_lt _ (by decide)
        staged := by
          simp only [enqueue, List.mem_append, List.mem_singleton]
          rintro x (hx | rfl)
          · exact h.staged x hx
          · exact h.seq }
  · simp only [enqueue, List.mem_append, List.mem_singleton]
    rintro x (hx | rfl)
    · exact h.1 x hx
    · exact formed

theorem keeps_dequeue {s : State} {x : Staged} {rest : List Staged} (head : s.cs.queue = x :: rest) :
    Keeps s { s with cs := { s.cs with queue := rest } } := by
  have mem : ∀ y ∈ rest, y ∈ s.cs.queue := fun y hy => head ▸ List.mem_cons_of_mem _ hy
  refine keeps_stage (fun h => ?_) fun h => ⟨fun y hy => h.1 y (mem y hy), h.2⟩
  have := h.queue
  rw [head] at this
  exact { h with queue := (Nat.le_succ _).trans this, staged := fun y hy => h.staged y (mem y hy) }

/-! ### A new entry of the scheduled list (R53, R54) -/

/-- A new entry stands after every entry whose minute is not after its own. -/
theorem scheduleInsert_eq (e : Scheduled) {l : List Scheduled} (ordered : l.Pairwise fun f g => f.minute ≤ g.minute) :
    scheduleInsert e l = l.filter (fun f => decide (f.minute ≤ e.minute)) ++ [e]
      ++ l.filter (fun f => decide (e.minute < f.minute)) := by
  induction l with
  | nil => rfl
  | cons f l ih =>
    obtain ⟨first, rest⟩ := List.pairwise_cons.1 ordered
    rw [scheduleInsert]
    by_cases h : f.minute ≤ e.minute
    · simp [h, ih rest, Nat.not_lt.2 h]
    · have later : ∀ g ∈ l, e.minute < g.minute := fun g hg => (Nat.lt_of_not_le h).trans_le (first g hg)
      have none_before : l.filter (fun g => decide (g.minute ≤ e.minute)) = [] :=
        List.filter_eq_nil_iff.2 fun g hg => by simpa using later g hg
      have all_after : l.filter (fun g => decide (e.minute < g.minute)) = l :=
        List.filter_eq_self.2 fun g hg => by simpa using later g hg
      simp [h, none_before, all_after, Nat.lt_of_not_le h]

theorem scheduleInsert_perm (e : Scheduled) (l : List Scheduled) : (scheduleInsert e l).Perm (e :: l) := by
  induction l with
  | nil => exact .refl _
  | cons f l ih =>
    rw [scheduleInsert]
    split
    · exact (ih.cons f).trans (.swap e f l)
    · exact .refl _

/-- The number of a new entry is the lowest of 1 to 255 that no entry holds; with fewer than 255 entries there is one. -/
theorem freeNumber_spec {l : List Scheduled} (few : l.length < 255) :
    1 ≤ freeNumber l ∧ freeNumber l ≤ 255 ∧ (∀ e ∈ l, e.number ≠ freeNumber l)
      ∧ ∀ m, 1 ≤ m → m < freeNumber l → ∃ e ∈ l, e.number = m := by
  unfold freeNumber
  cases found : ((List.range 255).map fun n => n + 1).find? fun n => !l.any fun e => e.number == n with
  | none =>
    have used : ((List.range 255).map fun n => n + 1) ⊆ l.map Scheduled.number := fun n hn => by
      have := List.find?_eq_none.1 found n hn
      simp only [Bool.not_eq_true', Bool.not_eq_false, List.any_eq_true, beq_iff_eq] at this
      exact List.mem_map.2 this
    have nodup : ((List.range 255).map fun n => n + 1).Nodup :=
      List.nodup_range.map fun _ _ h => Nat.succ.inj h
    have := (List.subperm_of_subset nodup used).length_le
    rw [List.length_map, List.length_range, List.length_map] at this
    omega
  | some n =>
    have mem := List.mem_of_find?_eq_some found
    obtain ⟨free, i, before, at_i, all⟩ := List.find?_eq_some_iff_getElem.1 found
    simp only [List.getElem_map, List.getElem_range, List.length_map, List.length_range] at before at_i all
    simp only [Option.getD_some]
    refine ⟨by omega, by omega, by simpa using free, fun m low high => ?_⟩
    have := all (m - 1) (by omega)
    rw [Nat.sub_add_cancel low] at this
    simpa using this

theorem keeps_scheduleInsert {s : State} {e : Scheduled} (room : s.cs.schedule.length < 32)
    (number : e.number = freeNumber s.cs.schedule) (minute : e.minute ≤ 1439) (formed : editFormed e.edit = true) :
    Keeps s { s with cs := { s.cs with schedule := scheduleInsert e s.cs.schedule } } := by
  have perm := scheduleInsert_perm e s.cs.schedule
  have mem : ∀ f ∈ scheduleInsert e s.cs.schedule, f = e ∨ f ∈ s.cs.schedule := fun f hf =>
    List.mem_cons.1 (perm.mem_iff.1 hf)
  obtain ⟨low, high, fresh, -⟩ := freeNumber_spec (l := s.cs.schedule) (by omega)
  refine keeps_stage (fun h => ?_) fun h => ⟨h.1, fun f hf => ?_⟩
  · exact
      { h with
        schedule := by
          show (scheduleInsert e s.cs.schedule).length ≤ 32
          rw [perm.length_eq]; exact room
        ordered := by
          show (scheduleInsert e s.cs.schedule).Pairwise _
          rw [scheduleInsert_eq e h.ordered]
          simp only [List.append_assoc, List.pairwise_append, List.pairwise_cons, List.singleton_append, List.mem_filter,
            decide_eq_true_eq, List.mem_cons]
          refine ⟨h.ordered.filter _, ⟨fun g hg => hg.2.le, h.ordered.filter _⟩, ?_⟩
          rintro f ⟨-, hf⟩ g (rfl | ⟨-, hg⟩)
          · exact hf
          · exact hf.trans hg.le
        numbers := by
          show (scheduleInsert e s.cs.schedule).Pairwise _
          rw [perm.pairwise_iff fun h => h.symm, List.pairwise_cons]
          exact ⟨fun f hf => by rw [number]; exact (fresh f hf).symm, h.numbers⟩
        entries := fun f hf => by
          rcases mem f hf with rfl | hf
          · rw [number]; exact ⟨low, high, minute⟩
          · exact h.entries f hf }
  · rcases mem f hf with rfl | hf
    · exact formed
    · exact h.2 f hf

theorem keeps_unscheduled {s : State} (p : Scheduled → Bool) :
    Keeps s { s with cs := { s.cs with schedule := s.cs.schedule.filter p } } :=
  keeps_stage
    (fun h =>
      { h with
        schedule := (List.length_filter_le _ _).trans h.schedule
        ordered := h.ordered.filter p
        numbers := h.numbers.filter p
        entries := fun e he => h.entries e (List.mem_filter.1 he).1 })
    fun h => ⟨h.1, fun e he => h.2 e (List.mem_filter.1 he).1⟩

end Sys2Proof.Proofs
end

section
/-! Numbered stores and ascending lists as their members give them, directory order, and what the listing edits do to the
directory (R5, R12 to R17). -/

namespace Sys2Proof.Proofs
open Sys2Proof.Machine Sys2Proof.Safety Sys2Proof.Laws

/-! ### Numbered stores -/

variable {α β : Type}

theorem mem_iff_tableGet {t : List (Nat × α)} (sorted : TableSorted t) {k : Nat} {v : α} :
    (k, v) ∈ t ↔ tableGet t k = some v := ⟨tableGet_of_mem sorted, mem_of_tableGet⟩

theorem tableErase_eq_filter {t : List (Nat × α)} (sorted : TableSorted t) (k : Nat) :
    tableErase t k = t.filter fun p => p.1 != k := by
  induction t with
  | nil => rfl
  | cons p rest ih =>
    obtain ⟨j, w⟩ := p
    obtain ⟨later, sorted⟩ := List.pairwise_cons.1 sorted
    by_cases h : j = k
    · subst h
      have all : rest.filter (fun p => p.1 != j) = rest :=
        List.filter_eq_self.2 fun q hq => by simpa using (later q hq).ne'
      simp [tableErase, all]
    · simp [tableErase, h, ih sorted]

/-- A put is the new record in the place of what stood under its number, if anything did. -/
theorem tablePut_perm {t : List (Nat × α)} (sorted : TableSorted t) (k : Nat) (v : α) :
    (tablePut t k v).Perm ((k, v) :: tableErase t k) := by
  induction t with
  | nil => exact .refl _
  | cons p rest ih =>
    obtain ⟨j, w⟩ := p
    obtain ⟨later, sorted⟩ := List.pairwise_cons.1 sorted
    rw [tablePut]
    split
    · rename_i less
      have free : tableErase rest k = rest := by
        rw [tableErase_eq_filter sorted, List.filter_eq_self]
        intro q hq
        have : j < q.1 := later q hq
        have : q.1 ≠ k := by omega
        simpa using this
      rw [tableErase, if_neg (by omega), free]
    · split
      · rename_i same
        subst same
        rw [tableErase, if_pos rfl]
      · rename_i other
        rw [tableErase, if_neg (Ne.symm other)]
        exact ((ih sorted).cons _).trans (.swap _ _ _)

theorem tableErase_perm {t : List (Nat × α)} {k : Nat} {v : α} (at_k : tableGet t k = some v) :
    t.Perm ((k, v) :: tableErase t k) := by
  induction t with
  | nil => simp at at_k
  | cons p rest ih =>
    obtain ⟨j, w⟩ := p
    rw [tableGet] at at_k
    rw [tableErase]
    split at at_k
    · rename_i same
      subst same
      cases at_k
      rw [if_pos rfl]
    · rename_i other
      rw [if_neg other]
      exact ((ih at_k).cons _).trans (.swap _ _ _)

theorem tableErase_free {t : List (Nat × α)} {k : Nat} (free : tableGet t k = none) : tableErase t k = t := by
  induction t with
  | nil => rfl
  | cons p rest ih =>
    obtain ⟨j, w⟩ := p
    rw [tableGet] at free
    split at free
    · cases free
    · rename_i other
      rw [tableErase, if_neg other, ih free]

/-- A put under a number in use leaves the numbers as they are. -/
theorem tablePut_keys_inUse {t : List (Nat × α)} (sorted : TableSorted t) {k : Nat} {v : α} (w : α)
    (at_k : tableGet t k = some v) : (tablePut t k w).map (fun p => p.1) = t.map fun p => p.1 := by
  induction t with
  | nil => simp at at_k
  | cons p rest ih =>
    obtain ⟨j, u⟩ := p
    obtain ⟨later, sorted⟩ := List.pairwise_cons.1 sorted
    rw [tableGet] at at_k
    split at at_k
    · rename_i same
      subst same
      simp [tablePut]
    · have : j < k := later _ (mem_of_tableGet at_k)
      rw [tablePut, if_neg (by omega), if_neg (by omega), List.map_cons, List.map_cons, ih sorted at_k]

theorem mem_tableMap {f : Nat → α → β} {t : List (Nat × α)} {q : Nat × β} :
    q ∈ tableMap f t ↔ ∃ p ∈ t, (p.1, f p.1 p.2) = q := List.mem_map

theorem tableMap_tableMap {γ : Type} (f : Nat → β → γ) (g : Nat → α → β) (t : List (Nat × α)) :
    tableMap f (tableMap g t) = tableMap (fun k v => f k (g k v)) t := by
  simp [tableMap, Function.comp_def]

theorem inUse_tableMap (f : Nat → α → β) (t : List (Nat × α)) (k : Nat) : inUse (tableMap f t) k = inUse t k := by
  simp [inUse]

theorem inUse_put {t : List (Nat × α)} {k : Nat} {v : α} {m : Nat} (h : inUse t m = true) :
    inUse (tablePut t k v) m = true := by
  by_cases same : m = k
  · subst same; simp [inUse]
  · rwa [inUse, tableGet_put_other _ _ same]

theorem inUse_put_same {t : List (Nat × α)} {k : Nat} {v w : α} (at_k : tableGet t k = some w) (m : Nat) :
    inUse (tablePut t k v) m = inUse t m := by
  by_cases same : m = k
  · subst same; simp [inUse, at_k]
  · rw [inUse, tableGet_put_other _ _ same, inUse]

/-! ### Ascending lists of numbers -/

theorem mem_insertNat {n m : Nat} {l : List Nat} : m ∈ insertNat n l ↔ m = n ∨ m ∈ l := by
  induction l with
  | nil => simp [insertNat]
  | cons x l ih =>
    simp only [insertNat]
    split
    · simp
    · split
      · rename_i same
        subst same
        simp
      · rw [List.mem_cons, ih, List.mem_cons]
        exact or_left_comm

theorem insertNat_ascending {n : Nat} {l : List Nat} (h : l.Pairwise (· < ·)) : (insertNat n l).Pairwise (· < ·) := by
  induction l with
  | nil => simp [insertNat]
  | cons x l ih =>
    obtain ⟨later, rest⟩ := List.pairwise_cons.1 h
    simp only [insertNat]
    split
    · rename_i less
      exact List.pairwise_cons.2 ⟨fun y hy => by
        rcases List.mem_cons.1 hy with rfl | hy
        · exact less
        · exact less.trans (later y hy), h⟩
    · split
      · rename_i same
        subst same
        exact h
      · refine List.pairwise_cons.2 ⟨fun y hy => ?_, ih rest⟩
        rcases mem_insertNat.1 hy with rfl | hy
        · omega
        · exact later y hy

theorem length_insertNat_le (n : Nat) (l : List Nat) : (insertNat n l).length ≤ l.length + 1 := by
  induction l with
  | nil => simp [insertNat]
  | cons x l ih =>
    simp only [insertNat]
    split
    · simp
    · split
      · simp
      · simpa using ih

theorem mem_sortNat {m : Nat} {l : List Nat} : m ∈ sortNat l ↔ m ∈ l := by
  induction l with
  | nil => rfl
  | cons x l ih => rw [sortNat, mem_insertNat, ih, List.mem_cons]

theorem mem_removeNat {n m : Nat} {l : List Nat} : m ∈ removeNat n l ↔ m ∈ l ∧ m ≠ n := by simp [removeNat]

/-- An ascending list is given by its members. -/
theorem ascending_ext {l l' : List Nat} (h : l.Pairwise (· < ·)) (h' : l'.Pairwise (· < ·))
    (same : ∀ n, n ∈ l ↔ n ∈ l') : l = l' := h.eq_of_mem_iff h' same

theorem insertNat_of_mem {n : Nat} {l : List Nat} (h : l.Pairwise (· < ·)) (mem : n ∈ l) : insertNat n l = l :=
  ascending_ext (insertNat_ascending h) h fun m => by
    rw [mem_insertNat]
    exact ⟨fun h => h.elim (fun h => h ▸ mem) id, .inr⟩

/-! ### Directory order (R5) -/

theorem keyBefore_iff (a b : List Nat) : keyBefore a b = true ↔ a < b := by
  induction a generalizing b with
  | nil => cases b <;> simp [keyBefore]
  | cons x xs ih =>
    cases b with
    | nil => simp [keyBefore]
    | cons y ys =>
      rw [keyBefore, List.cons_lt_cons_iff, ← ih]
      split
      · simp [*]
      · split
        · simp; omega
        · have : x = y := by omega
          simp [this]

theorem keyBefore_iff_KeyBefore (a b : List Nat) : KeyBefore a b ↔ a < b := by
  rw [List.lt_iff_exists]
  constructor
  · rintro ⟨i, same, ⟨rfl, less⟩ | ⟨x, y, at_a, at_b, less⟩⟩
    · exact .inl ⟨by rwa [List.take_length] at same, less⟩
    · obtain ⟨ha, rfl⟩ := List.getElem?_eq_some_iff.1 at_a
      obtain ⟨hb, rfl⟩ := List.getElem?_eq_some_iff.1 at_b
      refine .inr ⟨i, ha, hb, fun j hj => ?_, less⟩
      have := congrArg (fun l => l[j]?) same
      simp only [List.getElem?_take, if_pos hj] at this
      rw [List.getElem?_eq_getElem (hj.trans ha), List.getElem?_eq_getElem (hj.trans hb)] at this
      exact Option.some.inj this
  · rintro (⟨same, less⟩ | ⟨i, ha, hb, same, less⟩)
    · exact ⟨a.length, by rwa [List.take_length], .inl ⟨rfl, less⟩⟩
    · refine ⟨i, List.ext_getElem? fun j => ?_,
        .inr ⟨a[i], b[i], List.getElem?_eq_getElem ha, List.getElem?_eq_getElem hb, less⟩⟩
      simp only [List.getElem?_take]
      split
      · rename_i hj
        rw [List.getElem?_eq_getElem (hj.trans ha), List.getElem?_eq_getElem (hj.trans hb), same j hj]
      · rfl

/-- Directory order is the lexicographic order of keys and numbers. -/
theorem directoryBefore_iff (a b : List Nat × Nat) : directoryBefore a b = true ↔ toLex a < toLex b := by
  have lex : toLex a < toLex b ↔ a.1 < b.1 ∨ a.1 = b.1 ∧ a.2 < b.2 := Prod.Lex.lt_iff
  rw [lex, directoryBefore]
  split
  · rename_i h
    simp [(keyBefore_iff _ _).1 h]
  · rename_i h
    rw [keyBefore_iff] at h
    split
    · rename_i h'
      rw [keyBefore_iff] at h'
      simp [h, h'.ne']
    · rename_i h'
      rw [keyBefore_iff] at h'
      have : a.1 = b.1 := le_antisymm (not_lt.1 h') (not_lt.1 h)
      simp [this]

theorem directoryBefore_iff_order (a b : List Nat) (m n : Nat) :
    directoryBefore (a, m) (b, n) = true ↔ DirectoryOrder a m b n := by
  rw [directoryBefore_iff, DirectoryOrder, keyBefore_iff_KeyBefore]
  exact Prod.Lex.lt_iff

theorem directoryBefore_trans {a b c : List Nat × Nat} (h : directoryBefore a b = true)
    (h' : directoryBefore b c = true) : directoryBefore a c = true := by
  rw [directoryBefore_iff] at *
  exact h.trans h'

theorem directoryBefore_asymm {a b : List Nat × Nat} (h : directoryBefore a b = true) : directoryBefore b a = false := by
  rw [← Bool.not_eq_true]
  rw [directoryBefore_iff] at *
  exact h.asymm

theorem directoryBefore_total {a b : List Nat × Nat} (ne : a ≠ b) (h : directoryBefore a b = false) :
    directoryBefore b a = true := by
  rw [← Bool.not_eq_true] at h
  rw [directoryBefore_iff] at *
  exact lt_of_le_of_ne (not_lt.1 h) fun eq => ne (toLex.injective eq.symm)

/-! ### The name index (R16, R17) -/

/-- The index stands in directory order under the keys. -/
def InOrder (key : Nat → List Nat) (index : List Nat) : Prop :=
  index.Pairwise fun m n => directoryBefore (key m, m) (key n, n) = true

theorem InOrder.congr {key key' : Nat → List Nat} {index : List Nat} (h : InOrder key index)
    (same : ∀ m ∈ index, key' m = key m) : InOrder key' index := by
  refine List.Pairwise.imp_of_mem ?_ h
  intro m n hm hn before
  rwa [same m hm, same n hn]

/-- In an ordered index a new number stands at its place, the others keeping theirs. -/
theorem indexInsert_eq {key : Nat → List Nat} {n : Nat} {index : List Nat} (ordered : InOrder key index)
    (fresh : n ∉ index) : indexInsert key n index = indexWith key n index := by
  induction index with
  | nil => rfl
  | cons m rest ih =>
    obtain ⟨later, ordered'⟩ := List.pairwise_cons.1 ordered
    have ne : n ≠ m := fun h => fresh (h ▸ List.mem_cons_self)
    have fresh' : n ∉ rest := fun h => fresh (List.mem_cons_of_mem _ h)
    rw [indexInsert]
    by_cases h : directoryBefore (key n, n) (key m, m) = true
    · have after : ∀ x ∈ m :: rest, directoryBefore (key n, n) (key x, x) = true := fun x hx => by
        rcases List.mem_cons.1 hx with rfl | hx
        · exact h
        · exact directoryBefore_trans h (later x hx)
      have none_before : (m :: rest).filter (fun x => directoryBefore (key x, x) (key n, n)) = [] :=
        List.filter_eq_nil_iff.2 fun x hx => by simp [directoryBefore_asymm (after x hx)]
      rw [if_pos h, indexWith, none_before, List.filter_eq_self.2 after, List.nil_append]
    · have h : directoryBefore (key n, n) (key m, m) = false := by simpa using h
      have before : directoryBefore (key m, m) (key n, n) = true :=
        directoryBefore_total (fun eq => ne (congrArg Prod.snd eq)) h
      rw [if_neg (by simp [h]), ih ordered' fresh']
      simp [indexWith, before, h]

theorem mem_indexInsert {key : Nat → List Nat} {n m : Nat} {index : List Nat} :
    m ∈ indexInsert key n index ↔ m = n ∨ m ∈ index := by
  induction index with
  | nil => simp [indexInsert]
  | cons x rest ih =>
    simp only [indexInsert]
    split
    · simp
    · rw [List.mem_cons, ih, List.mem_cons]
      exact or_left_comm

theorem indexInsert_inOrder {key : Nat → List Nat} {n : Nat} {index : List Nat} (ordered : InOrder key index)
    (fresh : n ∉ index) : InOrder key (indexInsert key n index) := by
  rw [indexInsert_eq ordered fresh, indexWith]
  refine List.pairwise_append.2 ⟨ordered.filter _, List.pairwise_cons.2 ⟨fun x hx => ?_, ordered.filter _⟩, ?_⟩
  · exact (List.mem_filter.1 hx).2
  · intro x hx y hy
    have before := (List.mem_filter.1 hx).2
    rcases List.mem_cons.1 hy with rfl | hy
    · exact before
    · exact directoryBefore_trans before (List.mem_filter.1 hy).2

/-! ### The listing edits (R12 to R15) -/

theorem nameOf_putListingAt (ds : Directory) (n : Nat) (l : Listing) (m : Nat) :
    nameOf (putListingAt ds n l) m = if m = n then l.name else nameOf ds m := by
  unfold nameOf putListingAt
  split
  · rename_i same
    subst same
    simp
  · rename_i other
    rw [tableGet_put_other _ _ other]

theorem nameOf_of_get {ds : Directory} {n : Nat} {l : Listing} (h : tableGet ds.listings n = some l) :
    nameOf ds n = l.name := by simp [nameOf, h]

/-- The keys after the name key of one listing has been written. -/
def keysWith (ds : Directory) (n : Nat) (name : List Nat) (m : Nat) : List Nat := if m = n then name else nameOf ds m

theorem fillListing_eq {s : State} (index : IndexInv s) {n : Nat} (free : tableGet s.ds.listings n = none)
    (f : ListingForm) : (fillListing s.ds n f).nameIndex = indexWith (keysWith s.ds n f.name) n s.ds.nameIndex
      ∧ InOrder (keysWith s.ds n f.name) (fillListing s.ds n f).nameIndex := by
  have fresh : n ∉ s.ds.nameIndex := fun h => by simpa [inUse, free] using (index.holds n).1 h
  have ordered : InOrder (keysWith s.ds n f.name) s.ds.nameIndex :=
    InOrder.congr index.ordered fun m hm => if_neg fun h : m = n => fresh (h ▸ hm)
  have keys : (fillListing s.ds n f).nameIndex = indexInsert (keysWith s.ds n f.name) n s.ds.nameIndex := by
    unfold fillListing
    exact congrArg (indexInsert · n s.ds.nameIndex) (funext (nameOf_putListingAt _ _ _))
  exact ⟨keys.trans (indexInsert_eq ordered fresh), keys ▸ indexInsert_inOrder ordered fresh⟩

theorem replaceListing_eq {s : State} (index : IndexInv s) {n : Nat} {old : Listing} {f : ListingForm}
    (renamed : f.name ≠ old.name) :
    (replaceListing s.ds n old f).nameIndex =
        indexWith (keysWith s.ds n f.name) n (s.ds.nameIndex.filter fun m => m != n)
      ∧ InOrder (keysWith s.ds n f.name) (replaceListing s.ds n old f).nameIndex := by
  have fresh : n ∉ s.ds.nameIndex.filter fun m => m != n := by simp
  have ordered : InOrder (keysWith s.ds n f.name) (s.ds.nameIndex.filter fun m => m != n) :=
    InOrder.congr (index.ordered.filter _) fun m hm => if_neg fun h : m = n => fresh (h ▸ hm)
  have keys : (replaceListing s.ds n old f).nameIndex =
      indexInsert (keysWith s.ds n f.name) n (s.ds.nameIndex.filter fun m => m != n) := by
    unfold replaceListing
    rw [if_neg renamed]
    exact congrArg (indexInsert · n _) (funext (nameOf_putListingAt _ _ _))
  exact ⟨keys.trans (indexInsert_eq ordered fresh), keys ▸ indexInsert_inOrder ordered fresh⟩

theorem applyPutListing_free {n : Nat} {s : State} (free : tableGet s.ds.listings n = none) (f : ListingForm) :
    applyEdit (.putListing n f) s = ({ s with ds := fillListing s.ds n f }, groupBit 8) := by
  simp [applyEdit, applyPutListing, free]

theorem applyPutListing_used {n : Nat} {s : State} {old : Listing} (used : tableGet s.ds.listings n = some old)
    (f : ListingForm) :
    applyEdit (.putListing n f) s = ({ s with ds := replaceListing s.ds n old f }, replaceGroups old f) := by
  simp [applyEdit, applyPutListing, used]

theorem fillListing_listings (ds : Directory) (n : Nat) (f : ListingForm) : (fillListing ds n f).listings =
    tablePut ds.listings n { toListingForm := storedForm f, popularity := 0, reachStandard := false,
                             reachStepFree := false } := rfl

theorem replaceListing_listings (ds : Directory) (n : Nat) (old : Listing) (f : ListingForm) :
    (replaceListing ds n old f).listings = tablePut ds.listings n { old with toListingForm := storedForm f } := by
  unfold replaceListing
  dsimp only
  split <;> rfl

theorem replaceListing_sameKey {n : Nat} {old : Listing} {f : ListingForm} (same : f.name = old.name)
    (ds : Directory) : (replaceListing ds n old f).nameIndex = ds.nameIndex := by
  simp [replaceListing, same, putListingAt]

theorem applyListing_ds {edit : Edit} {s : State}
    (listing : (∃ n f, edit = .putListing n f) ∨ (∃ n status forward, edit = .setListingStatus n status forward)
      ∨ ∃ n, edit = .retireListing n) : (applyEdit edit s).1 = { s with ds := (applyEdit edit s).1.ds } := by
  rcases listing with ⟨n, f, rfl⟩ | ⟨n, status, forward, rfl⟩ | ⟨n, rfl⟩
  · rcases h : tableGet s.ds.listings n with _ | old
    · rw [applyPutListing_free h]
    · rw [applyPutListing_used h]
  · simp only [applyEdit, applySetStatus]
    split <;> rfl
  · rfl

theorem replaceGroups_eq (old : Listing) (f : ListingForm) : replaceGroups old f =
    (if old.name = f.name ∧ old.categories = sortNat f.categories ∧ old.floor = f.floor
        ∧ old.entrances = sortNat f.entrances ∧ old.status = f.status ∧ old.forward = f.forward
        ∧ old.hours = f.hours then 0 else groupBit 8)
      ||| (if old.status = f.status ∧ old.forward = f.forward then 0 else groupBit 9) := by
  have same : old.toListingForm = storedForm f ↔ old.name = f.name ∧ old.categories = sortNat f.categories
      ∧ old.floor = f.floor ∧ old.entrances = sortNat f.entrances ∧ old.status = f.status
      ∧ old.forward = f.forward ∧ old.hours = f.hours := by
    obtain ⟨⟨name, categories, floor, entrances, status, forward, hours⟩, popularity, standard, stepFree⟩ := old
    simp only [storedForm, ListingForm.mk.injEq]
  unfold replaceGroups
  rw [if_congr same rfl rfl]
  congr 1
  by_cases h : old.status = f.status ∧ old.forward = f.forward
  · simp [h]
  · rw [if_neg h, if_pos (by tauto)]

/-- Settles O16: each listing edit by whether its slot is free, with the place of a key from the order of the index. -/
theorem listingEditsApplied : Obligations.ListingEditsApplied := by
  refine ⟨fun edit s => applyListing_ds, fun n f s => ⟨fun free => ?_, fun old used => ?_, fun m other => ?_⟩,
    fun n status forward old s used => ?_, fun n s sorted => ?_, directoryBefore_iff_order⟩
  · rw [applyPutListing_free free]
    exact ⟨tableGet_put_same _ _ _, rfl, fun index => (fillListing_eq index free f).1⟩
  · rw [applyPutListing_used used]
    exact ⟨by rw [replaceListing_listings]; exact tableGet_put_same _ _ _,
      fun same => replaceListing_sameKey same.symm _,
      fun renamed index => (replaceListing_eq index (Ne.symm renamed)).1, replaceGroups_eq old f⟩
  · rcases h : tableGet s.ds.listings n with _ | old
    · rw [applyPutListing_free h, fillListing_listings]
      exact tableGet_put_other _ _ other
    · rw [applyPutListing_used h, replaceListing_listings]
      exact tableGet_put_other _ _ other
  · have applied : applyEdit (.setListingStatus n status forward) s =
        ({ s with ds := setStatus s.ds n old status forward }, statusGroups old status forward) := by
      simp [applyEdit, applySetStatus, used]
    rw [applied]
    refine ⟨tableGet_put_same _ _ _, rfl, ?_, fun m other => tableGet_put_other _ _ other⟩
    by_cases h : old.status = status ∧ old.forward = forward
    · simp [statusGroups, h]
    · rw [if_neg h, statusGroups, if_pos (by tauto)]
  · exact ⟨tableGet_erase_same sorted n, rfl, rfl, fun m other => tableGet_erase_other _ other⟩

end Sys2Proof.Proofs
end

section
/-! The Load Monitor's entries and the graph edits: what each does, and what keeps one load entry for each segment, the count
of the CONGESTED ones, and the consistency of the graph (R28, R39 to R44, R66, R76 to R83). -/

namespace Sys2Proof.Proofs
open Sys2Proof.Machine Sys2Proof.Safety Sys2Proof.Laws

/-! ### The count of the CONGESTED entries (R82) -/

/-- What one load entry adds to C. -/
def counted (e : LoadEntry) : Nat := if e.congested then 1 else 0

theorem congestedEntries_cons (p : Nat × LoadEntry) (t : List (Nat × LoadEntry)) :
    congestedEntries (p :: t) = counted p.2 + congestedEntries t := by
  unfold congestedEntries counted
  by_cases h : p.2.congested = true
  · simp [h, Nat.add_comm]
  · simp [h]

theorem congestedEntries_perm {t u : List (Nat × LoadEntry)} (h : t.Perm u) : congestedEntries t = congestedEntries u :=
  (h.filter _).length_eq

theorem congestedEntries_erase {t : List (Nat × LoadEntry)} {n : Nat} {e : LoadEntry} (at_n : tableGet t n = some e) :
    congestedEntries t = counted e + congestedEntries (tableErase t n) := by
  rw [congestedEntries_perm (tableErase_perm at_n), congestedEntries_cons]

theorem congestedEntries_put {t : List (Nat × LoadEntry)} (sorted : TableSorted t) (n : Nat) (e : LoadEntry) :
    congestedEntries (tablePut t n e) = counted e + congestedEntries (tableErase t n) := by
  rw [congestedEntries_perm (tablePut_perm sorted n e), congestedEntries_cons]

/-! ### A change of one load entry -/

/-- An entry replaced by one of a weight in range, with C moved as the entry's own state has moved. -/
theorem loadInv_entry {s t : State} {n : Nat} {e e' : LoadEntry} (at_n : tableGet s.lm.entries n = some e)
    (graph : t.wg = s.wg) (entries : t.lm.entries = tablePut s.lm.entries n e')
    (weight : 16 ≤ e.weight ∧ e.weight ≤ 64 → 16 ≤ e'.weight ∧ e'.weight ≤ 64)
    (count : counted e ≤ s.lm.congestedCount → t.lm.congestedCount + counted e = s.lm.congestedCount + counted e')
    (h : LoadInv s) : LoadInv t where
  sorted := by rw [entries]; exact tableSorted_put h.sorted _ _
  keys := by rw [entries, graph, tablePut_keys_inUse h.sorted e' at_n, h.keys]
  count := by
    have before := congestedEntries_erase at_n
    have after := congestedEntries_put h.sorted n e'
    have := h.count
    have := count (by omega)
    rw [entries, after]
    omega
  live p hp := by
    rw [entries] at hp
    rcases mem_put hp with rfl | old
    · exact weight (h.live _ (mem_of_tableGet at_n))
    · exact h.live p old
  sampled := by rw [graph]; exact h.sampled

/-- Every entry changed, none in its state or weight. -/
theorem keeps_loadEntries {s : State} {g : Nat → LoadEntry → LoadEntry}
    (same : ∀ n e, (g n e).congested = e.congested ∧ (g n e).weight = e.weight) :
    Keeps s { s with lm := { s.lm with entries := tableMap g s.lm.entries } } where
  load h :=
    { sorted := tableSorted_map h.sorted _
      keys := (tableMap_keys _ _).trans h.keys
      count := by
        show s.lm.congestedCount = congestedEntries (tableMap g s.lm.entries)
        rw [h.count]
        simp [congestedEntries, tableMap, List.filter_map, Function.comp_def, same]
      live := fun p hp => by
        obtain ⟨q, hq, rfl⟩ := mem_tableMap.1 hp
        rw [(same _ _).2]
        exact h.live q hq
      sampled := h.sampled }

/-! ### A reading (R78, R79, R81 to R83) -/

theorem weightAt_range (congested : Bool) (q level : Nat) :
    16 ≤ weightAt congested q level ∧ weightAt congested q level ≤ 64 := by
  unfold weightAt
  split <;> omega

theorem takePair_free {n : Nat} {s : State} (free : tableGet s.lm.entries n = none) (q : Nat) : takePair n q s = s := by
  simp [takePair, free]

/-- The congestion state rises, falls or stays, and C and the alarm follow it. -/
theorem takePair_used {n : Nat} {s : State} {e : LoadEntry} (at_n : tableGet s.lm.entries n = some e) (q : Nat) :
    let level := e.threshold - s.config.hysteresis
    let after : Bool := if e.congested then decide (level < q) else decide (e.threshold < q)
    let rises := after && !e.congested
    let falls := e.congested && !after
    let c := if rises then s.lm.congestedCount + 1 else if falls then s.lm.congestedCount - 1
      else s.lm.congestedCount
    let trips := rises && (!s.lm.tripped && (decide (0 < s.config.alarmLevel) && decide (s.config.alarmLevel ≤ c)))
    takePair n q s =
      { s with
        lm := { entries := tablePut s.lm.entries n
                  { reading := q, threshold := e.threshold, freshness := .fresh, age := 0, congested := after
                    weight := if after then 16 + min 48 ((q - level) / 4) else 16
                    episodes := if rises then min 255 (e.episodes + 1) else e.episodes }
                congestedCount := c
                tripped := if falls then s.lm.tripped && decide (s.config.alarmLevel ≤ c) else s.lm.tripped || trips }
        ep := { s.ep with flags := s.ep.flags ||| (if trips then 4 else 0) } } := by
  intro level after rises falls c trips
  have taken : takeReading e s.config.hysteresis q =
      { reading := q, threshold := e.threshold, freshness := .fresh, age := 0, congested := after
        weight := if after then 16 + min 48 ((q - level) / 4) else 16
        episodes := if rises then min 255 (e.episodes + 1) else e.episodes } := rfl
  unfold takePair
  rw [at_n]
  dsimp only
  rw [taken]
  dsimp only
  by_cases up : rises = true
  · have notFalls : falls = false := by
      have : e.congested = false := by simp only [rises, Bool.and_eq_true, Bool.not_eq_true'] at up; exact up.2
      simp [falls, this]
    have count : c = s.lm.congestedCount + 1 := if_pos up
    have trip : trips =
        (!s.lm.tripped && decide (0 < s.config.alarmLevel) && decide (s.config.alarmLevel ≤ s.lm.congestedCount + 1)) := by
      simp only [trips, up, count, Bool.true_and, Bool.and_assoc]
    have up' : (after && !e.congested) = true := up
    rw [if_pos up']
    simp only [countRises, ← trip, notFalls, count]
    by_cases t : trips = true
    · simp [t, raiseFlag, congestionAlarm, up]
    · simp [t, up]
  · have up' : ¬(after && !e.congested) = true := up
    have noTrip : trips = false := by simp [trips, up]
    rw [if_neg up']
    by_cases down : falls = true
    · have down' : (e.congested && !after) = true := down
      have count : c = s.lm.congestedCount - 1 := by simp [c, up, down]
      rw [if_pos down']
      simp [countFalls, noTrip, down, count, up]
    · have down' : ¬(e.congested && !after) = true := down
      have count : c = s.lm.congestedCount := by simp [c, up, down]
      rw [if_neg down']
      simp [noTrip, down, count, up]

theorem keeps_takePair (n q : Nat) (s : State) : Keeps s (takePair n q s) := by
  rcases at_n : tableGet s.lm.entries n with _ | e
  · exact .of_eq (takePair_free at_n q)
  · rw [takePair_used at_n q]
    refine { load := loadInv_entry at_n rfl rfl (fun _ => weightAt_range _ _ _) fun some_counted => ?_ }
    revert some_counted
    generalize (if e.congested = true then decide (e.threshold - s.config.hysteresis < q)
      else decide (e.threshold < q)) = after
    unfold counted
    cases e.congested <;> cases after <;> simp
    omega

theorem keeps_takePairs (pairs : List (Nat × Nat)) (s : State) : Keeps s (takePairs pairs s) := by
  induction pairs generalizing s with
  | nil => exact .refl s
  | cons x rest ih => exact (keeps_takePair x.1 x.2 s).trans (ih _)

theorem keeps_ageReadings (s : State) : Keeps s (ageReadings s) := by
  have aged : Keeps s
      { s with lm := { s.lm with entries := tableMap (fun _ e => ageEntry s.config.staleLimit e) s.lm.entries } } :=
    keeps_loadEntries fun n e => by unfold ageEntry; split <;> exact ⟨rfl, rfl⟩
  exact .ite (fun _ => aged.trans (keeps_raiseFlag _ _)) fun _ => aged

/-! ### The numbers of two stores -/

theorem tableGet_none_iff {α : Type} {t : List (Nat × α)} {n : Nat} :
    tableGet t n = none ↔ n ∉ t.map fun p => p.1 := by
  induction t with
  | nil => simp
  | cons p t ih =>
    obtain ⟨j, v⟩ := p
    rw [tableGet, List.map_cons, List.mem_cons]
    split
    · rename_i same
      simp [same]
    · rename_i other
      rw [ih]
      simp [Ne.symm other]

theorem tableGet_none_of_keys {α β : Type} {t : List (Nat × α)} {u : List (Nat × β)}
    (keys : t.map (fun p => p.1) = u.map fun p => p.1) {n : Nat} (free : tableGet t n = none) :
    tableGet u n = none := by
  rw [tableGet_none_iff] at *
  rwa [← keys]

theorem tableGet_some_of_keys {α β : Type} {t : List (Nat × α)} {u : List (Nat × β)}
    (keys : t.map (fun p => p.1) = u.map fun p => p.1) {n : Nat} {v : α} (used : tableGet t n = some v) :
    ∃ w, tableGet u n = some w := by
  rcases free : tableGet u n with _ | w
  · exact absurd (tableGet_none_of_keys keys.symm free) (by simp [used])
  · exact ⟨w, rfl⟩

/-! ### The segments that name a node (R28) -/

/-- The in-use segments that name a node, ascending. -/
def touching (segments : List (Nat × Segment)) (m : Nat) : List Nat :=
  (segments.filter fun g => touches g.2.toSegmentForm m).map fun g => g.1

theorem mem_touching {segments : List (Nat × Segment)} (sorted : TableSorted segments) {k m : Nat} :
    k ∈ touching segments m ↔ ∃ g, tableGet segments k = some g ∧ touches g.toSegmentForm m = true := by
  simp only [touching, List.mem_map, List.mem_filter, Prod.exists, exists_and_right, exists_eq_right,
    mem_iff_tableGet sorted]

theorem touching_ascending {segments : List (Nat × Segment)} (sorted : TableSorted segments) (m : Nat) :
    (touching segments m).Pairwise (· < ·) := List.pairwise_map.2 (sorted.filter _)

theorem touching_put {segments : List (Nat × Segment)} (sorted : TableSorted segments) (k : Nat) (g : Segment) (m : Nat) :
    touching (tablePut segments k g) m =
      if touches g.toSegmentForm m then insertNat k (touching segments m) else removeNat k (touching segments m) := by
  have ascending := touching_ascending sorted m
  have mem : ∀ n, n ∈ touching (tablePut segments k g) m ↔
      (n = k ∧ touches g.toSegmentForm m = true) ∨ (n ≠ k ∧ n ∈ touching segments m) := fun n => by
    rw [mem_touching (tableSorted_put sorted k g)]
    by_cases same : n = k
    · subst same; simp
    · rw [tableGet_put_other _ _ same, mem_touching sorted]
      simp [same]
  refine ascending_ext (touching_ascending (tableSorted_put sorted k g) m) ?_ fun n => ?_
  · split
    · exact insertNat_ascending ascending
    · exact ascending.filter _
  · rw [mem]
    split
    · rename_i named
      rw [mem_insertNat]
      by_cases same : n = k <;> simp [same, named]
    · rename_i unnamed
      rw [mem_removeNat]
      simp [unnamed, and_comm]

theorem touching_erase {segments : List (Nat × Segment)} (sorted : TableSorted segments) (k m : Nat) :
    touching (tableErase segments k) m = removeNat k (touching segments m) := by
  rw [tableErase_eq_filter sorted]
  simp only [touching, removeNat, List.filter_map, List.filter_filter, Function.comp_def]
  congr 2
  funext p
  exact Bool.and_comm _ _

theorem removeNat_fresh {n : Nat} {l : List Nat} (fresh : n ∉ l) : removeNat n l = l :=
  List.filter_eq_self.2 fun m hm => by simpa using fun h : m = n => fresh (h ▸ hm)

theorem touching_fresh {segments : List (Nat × Segment)} (sorted : TableSorted segments) {k m : Nat}
    (unnamed : ∀ g, tableGet segments k = some g → touches g.toSegmentForm m = false) : k ∉ touching segments m := by
  rw [mem_touching sorted]
  rintro ⟨g, at_k, named⟩
  simp [unnamed g at_k] at named

/-! ### Nodes that change in their adjacency lists alone -/

/-- The form of a node as a table gives it. -/
theorem tableGet_form {f : Nat → Node → Node} (forms : ∀ m x, (f m x).toNodeForm = x.toNodeForm)
    (nodes : List (Nat × Node)) (n : Nat) :
    (tableGet (tableMap f nodes) n).map Node.toNodeForm = (tableGet nodes n).map Node.toNodeForm := by
  rw [tableGet_map, Option.map_map]
  cases tableGet nodes n <;> simp [forms]

theorem floorOf_of_form {wg wg' : Graph} {n : Nat}
    (form : (tableGet wg'.nodes n).map Node.toNodeForm = (tableGet wg.nodes n).map Node.toNodeForm) :
    floorOf wg' n = floorOf wg n := by
  have := congrArg (fun o => (Option.map NodeForm.floor o).getD 0) form
  rw [Option.map_map, Option.map_map] at this
  exact this

theorem kindOf_of_form {wg wg' : Graph} {n : Nat}
    (form : (tableGet wg'.nodes n).map Node.toNodeForm = (tableGet wg.nodes n).map Node.toNodeForm) :
    kindOf wg' n = kindOf wg n := by
  have := congrArg (Option.map NodeForm.kind) form
  rw [Option.map_map, Option.map_map] at this
  exact this

/-- A node whose adjacency list has been changed by `f`. -/
def relisted (f : List Nat → List Nat) (x : Node) : Node := { x with adjacency := f x.adjacency }

theorem updateAdjacency_eq (f : List Nat → List Nat) (n : Nat) (nodes : List (Nat × Node)) :
    updateAdjacency f n nodes = tableMap (fun m x => if m = n then relisted f x else x) nodes := rfl

/-- A segment enters the adjacency lists of its two ends. -/
theorem joinEnds_eq {f : SegmentForm} (ends : f.endA ≠ f.endB) (n : Nat) (nodes : List (Nat × Node)) :
    joinNode n f.endB (joinNode n f.endA nodes) =
      tableMap (fun m x => if touches f m then relisted (insertNat n) x else x) nodes := by
  simp only [joinNode, updateAdjacency_eq, tableMap_tableMap]
  congr 1
  funext m x
  by_cases a : f.endA = m
  · subst a
    simp [touches, ends]
  · by_cases b : f.endB = m
    · simp [touches, b, Ne.symm a]
    · simp [touches, a, b, Ne.symm a, Ne.symm b]

theorem relisted_removeNat_twice (n : Nat) (x : Node) :
    relisted (removeNat n) (relisted (removeNat n) x) = relisted (removeNat n) x := by
  simp [relisted, removeNat, List.filter_filter]

/-- A segment that leaves the list of one end and then that of the other. -/
theorem leave_twice (old : SegmentForm) (n m : Nat) (x : Node) :
    (if m = old.endB then relisted (removeNat n) (if m = old.endA then relisted (removeNat n) x else x)
      else if m = old.endA then relisted (removeNat n) x else x) =
      if touches old m then relisted (removeNat n) x else x := by
  by_cases a : m = old.endA <;> by_cases b : m = old.endB
  · rw [if_pos b, if_pos a, if_pos (by simp [touches, a]), relisted_removeNat_twice]
  · rw [if_neg b, if_pos a, if_pos (by simp [touches, a])]
  · rw [if_pos b, if_neg a, if_pos (by simp [touches, b])]
  · rw [if_neg b, if_neg a, if_neg (by simp [touches, Ne.symm a, Ne.symm b])]

/-- A segment leaves the adjacency lists of its two ends, but for an end that it keeps. -/
theorem leaveEnds_eq (old f : SegmentForm) (n : Nat) (nodes : List (Nat × Node)) :
    leaveUnless n old.endB f (leaveUnless n old.endA f nodes) =
      tableMap (fun m x => if touches old m && !touches f m then relisted (removeNat n) x else x) nodes := by
  have one : ∀ e (nodes : List (Nat × Node)), leaveUnless n e f nodes =
      tableMap (fun m x => if m = e ∧ touches f e = false then relisted (removeNat n) x else x) nodes := fun e nodes => by
    unfold leaveUnless
    split
    · rename_i kept
      simp [kept, tableMap]
    · rename_i gone
      simp only [leaveNode, updateAdjacency_eq, gone, and_true]
  simp only [one, tableMap_tableMap]
  congr 1
  funext m x
  by_cases kept : touches f m = true
  · have : ∀ e, ¬(m = e ∧ touches f e = false) := by rintro e ⟨rfl, gone⟩; simp [kept] at gone
    simp [kept, this]
  · have kept : touches f m = false := by simpa using kept
    have : ∀ e, (m = e ∧ touches f e = false) ↔ m = e := fun e => ⟨And.left, fun h => ⟨h, h ▸ kept⟩⟩
    simp only [this, kept, Bool.not_false, Bool.and_true]
    exact leave_twice old n m x

theorem leaveBoth_eq (old : SegmentForm) (n : Nat) (nodes : List (Nat × Node)) :
    leaveNode n old.endB (leaveNode n old.endA nodes) =
      tableMap (fun m x => if touches old m then relisted (removeNat n) x else x) nodes := by
  simp only [leaveNode, updateAdjacency_eq, tableMap_tableMap]
  congr 1
  funext m x
  exact leave_twice old n m x

end Sys2Proof.Proofs
end

section
/-! What the graph edits do (R39 to R43), and that an edit which passes its tests keeps the records consistent (R44). -/

namespace Sys2Proof.Proofs
open Sys2Proof.Machine Sys2Proof.Safety Sys2Proof.Laws

/-! ### Each graph edit applied -/

theorem touches_iff (g : SegmentForm) (m : Nat) : touches g m = true ↔ m = g.endA ∨ m = g.endB := by
  simp only [touches, Bool.or_eq_true, beq_iff_eq]
  exact or_congr eq_comm eq_comm

theorem applyPutNode_free {n : Nat} {s : State} (free : tableGet s.wg.nodes n = none) (f : NodeForm) :
    applyEdit (.putNode n f) s =
      ({ s with wg := { s.wg with nodes := tablePut s.wg.nodes n { toNodeForm := f, adjacency := [] } } },
       groupBit f.floor) := by
  simp [applyEdit, applyPutNode, putNode, free]

theorem applyPutNode_used {n : Nat} {s : State} {x : Node} (used : tableGet s.wg.nodes n = some x) (f : NodeForm) :
    applyEdit (.putNode n f) s =
      ({ s with wg := { s.wg with nodes := tablePut s.wg.nodes n { toNodeForm := f, adjacency := x.adjacency } } },
       if x.toNodeForm = f then 0 else groupBit x.floor ||| groupBit f.floor) := by
  simp [applyEdit, applyPutNode, putNode, used]

theorem applySetExit_used {n : Nat} {s : State} {x : Node} (used : tableGet s.wg.nodes n = some x) (state : ExitState) :
    applyEdit (.setExit n state) s =
      ({ s with wg := { s.wg with nodes := tablePut s.wg.nodes n { x with kind := .exit state } } },
       if x.kind = .exit state then 0 else groupBit x.floor) := by
  simp [applyEdit, applySetExit, setExit, used]

theorem fillSegment_eq {f : SegmentForm} (ends : f.endA ≠ f.endB) (wg : Graph) (n : Nat) : fillSegment wg n f =
    { wg with segments := tablePut wg.segments n { toSegmentForm := f, weight := 16 }
              nodes := tableMap (fun m x => if touches f m then relisted (insertNat n) x else x) wg.nodes } := by
  rw [fillSegment, joinEnds_eq ends]

/-- What a replaced segment does to a node: an end joins, an old end that is no end any more leaves. -/
def reended (old f : SegmentForm) (n m : Nat) (x : Node) : Node :=
  if touches f m then relisted (insertNat n) x
  else if touches old m then relisted (removeNat n) x else x

theorem replaceSegment_eq {f : SegmentForm} (ends : f.endA ≠ f.endB) (wg : Graph) (n : Nat) (old : Segment) :
    replaceSegment wg n old f =
      { wg with segments := tablePut wg.segments n { old with toSegmentForm := f }
                nodes := tableMap (reended old.toSegmentForm f n) wg.nodes } := by
  rw [replaceSegment, joinEnds_eq ends, leaveEnds_eq old.toSegmentForm f, tableMap_tableMap]
  congr 2
  funext m x
  unfold reended
  by_cases named : touches f m = true <;> simp [named]

theorem applyPutSegment_free {n : Nat} {s : State} (free : tableGet s.wg.segments n = none) (f : SegmentForm) :
    applyEdit (.putSegment n f) s =
      ({ s with wg := fillSegment s.wg n f, lm := createEntry n s.lm }, endGroups s.wg f) := by
  simp only [applyEdit, applyPutSegment, free]

theorem applyPutSegment_used {n : Nat} {s : State} {old : Segment} (used : tableGet s.wg.segments n = some old)
    (f : SegmentForm) : applyEdit (.putSegment n f) s =
      ({ s with wg := replaceSegment s.wg n old f },
       if old.toSegmentForm = f then 0 else endGroups s.wg old.toSegmentForm ||| endGroups s.wg f) := by
  simp only [applyEdit, applyPutSegment, used]

theorem applySetSegmentState_used {n : Nat} {s : State} {old : Segment} (used : tableGet s.wg.segments n = some old)
    (state : SegmentState) : applyEdit (.setSegmentState n state) s =
      ({ s with wg := { s.wg with segments := tablePut s.wg.segments n { old with state := state } } },
       if old.state = state then 0 else endGroups s.wg old.toSegmentForm) := by
  simp [applyEdit, applySetSegmentState, setSegmentState, used]

theorem applyRemoveSegment_used {n : Nat} {s : State} {old : Segment} (used : tableGet s.wg.segments n = some old) :
    applyEdit (.removeSegment n) s =
      ({ s with wg := { s.wg with segments := tableErase s.wg.segments n
                                  nodes := tableMap (fun m x =>
                                    if touches old.toSegmentForm m then relisted (removeNat n) x else x) s.wg.nodes }
                lm := discardEntry s.config.alarmLevel n s.lm }, endGroups s.wg old.toSegmentForm) := by
  simp only [applyEdit, applyRemoveSegment, used, removeSegment, leaveBoth_eq old.toSegmentForm]

theorem discardEntry_entries (alarm n : Nat) (lm : LoadMonitor) :
    (discardEntry alarm n lm).entries = tableErase lm.entries n := by
  unfold discardEntry
  dsimp only
  split
  · split <;> rfl
  · rfl

theorem discardEntry_used {n : Nat} {lm : LoadMonitor} {e : LoadEntry} (used : tableGet lm.entries n = some e)
    (alarm : Nat) : discardEntry alarm n lm =
      { entries := tableErase lm.entries n
        congestedCount := if e.congested then lm.congestedCount - 1 else lm.congestedCount
        tripped := if e.congested then lm.tripped && decide (alarm ≤ lm.congestedCount - 1) else lm.tripped } := by
  unfold discardEntry
  simp only [used]
  split <;> rfl

/-- Settles O17: each edit as one change of its tables, read at the number that it names and at the others. -/
theorem graphEditsApplied : Obligations.GraphEditsApplied := by
  refine ⟨⟨fun n f s => ?_, fun n x s sorted used => ?_, fun n x state s used => ?_, fun a node s => ?_⟩,
    fun n f s ends free => ?_, fun n f old s ends used => ?_, fun n old state s used => ?_,
    fun n old s sorted loads _ used => ?_⟩
  · refine ⟨fun free => ?_, fun x used => ?_, fun m other => ?_, ?_⟩
    · rw [applyPutNode_free free]
      exact ⟨tableGet_put_same _ _ _, rfl⟩
    · rw [applyPutNode_used used]
      exact ⟨tableGet_put_same _ _ _, rfl⟩
    · exact tableGet_put_other _ _ other
    · rfl
  · refine ⟨tableGet_erase_same sorted n, ?_, fun m other => tableGet_erase_other _ other, rfl⟩
    simp [applyEdit, floorGroup, floorOf, used]
  · rw [applySetExit_used used]
    exact ⟨tableGet_put_same _ _ _, rfl, fun m other => tableGet_put_other _ _ other, rfl⟩
  · refine ⟨?_, rfl, fun b other => ?_, rfl⟩
    · exact Vector.getElem_set_self _
    · exact Vector.getElem_set_ne a.isLt b.isLt fun h => other (Fin.ext h.symm)
  · rw [applyPutSegment_free free, fillSegment_eq ends]
    refine ⟨tableGet_put_same _ _ _, tableGet_put_same _ _ _, fun m x at_m => ?_, rfl,
      fun m other => tableGet_put_other _ _ other, fun m at_m => ?_, fun m other => tableGet_put_other _ _ other, rfl⟩
    · simp only [tableGet_map, at_m, Option.map_some, touches_iff]
      rfl
    · simp only [tableGet_map, at_m, Option.map_none]
  · rw [applyPutSegment_used used, replaceSegment_eq ends]
    refine ⟨tableGet_put_same _ _ _, fun m x at_m => ?_, rfl, fun m other => tableGet_put_other _ _ other,
      fun m at_m => ?_, rfl⟩
    · simp only [tableGet_map, at_m, Option.map_some, reended, touches_iff]
      rfl
    · simp only [tableGet_map, at_m, Option.map_none]
  · rw [applySetSegmentState_used used]
    exact ⟨tableGet_put_same _ _ _, rfl, fun m other => tableGet_put_other _ _ other, rfl⟩
  · rw [applyRemoveSegment_used used]
    refine ⟨tableGet_erase_same sorted n, ?_, fun m x at_m => ?_, rfl, fun e at_n => ?_,
      fun m other => tableGet_erase_other _ other, fun m at_m => ?_, fun m other => ?_, rfl⟩
    · rw [discardEntry_entries]
      exact tableGet_erase_same loads n
    · simp only [tableGet_map, at_m, Option.map_some, touches_iff]
      rfl
    · rw [discardEntry_used at_n]
      exact ⟨rfl, rfl⟩
    · simp only [tableGet_map, at_m, Option.map_none]
    · rw [discardEntry_entries]
      exact tableGet_erase_other _ other

/-! ### An applied edit keeps the load entries (R77, R82) -/

theorem loadInv_filled {s : State} {n : Nat} {g : Segment} {nodes : List (Nat × Node)}
    (free : tableGet s.wg.segments n = none) (weight : 16 ≤ g.weight ∧ g.weight ≤ 64) (h : LoadInv s) :
    LoadInv { s with wg := { s.wg with segments := tablePut s.wg.segments n g, nodes := nodes }
                     lm := createEntry n s.lm } where
  sorted := tableSorted_put h.sorted _ _
  keys := tablePut_keys _ _ _ _ _ h.keys
  count := by
    have none_there : tableErase s.lm.entries n = s.lm.entries :=
      tableErase_free (tableGet_none_of_keys h.keys.symm free)
    show s.lm.congestedCount = congestedEntries (tablePut s.lm.entries n newLoadEntry)
    rw [congestedEntries_put h.sorted, none_there, h.count]
    simp [counted, newLoadEntry]
  live p hp := by
    rcases mem_put hp with rfl | old
    · exact ⟨Nat.le_refl 16, show 16 ≤ 64 by decide⟩
    · exact h.live p old
  sampled p hp := by
    rcases mem_put hp with rfl | old
    · exact weight
    · exact h.sampled p old

/-- A segment replaced by one of the same sampled weight. -/
theorem loadInv_replaced {s : State} {n : Nat} {old g : Segment} {nodes : List (Nat × Node)}
    (sorted : TableSorted s.wg.segments) (used : tableGet s.wg.segments n = some old) (weight : g.weight = old.weight)
    (h : LoadInv s) :
    LoadInv { s with wg := { s.wg with segments := tablePut s.wg.segments n g, nodes := nodes } } :=
  { h with
    keys := h.keys.trans (tablePut_keys_inUse sorted g used).symm
    sampled := fun p hp => by
      rcases mem_put hp with rfl | mem
      · rw [weight]
        exact h.sampled _ (mem_of_tableGet used)
      · exact h.sampled p mem }

theorem loadInv_discarded {s : State} {n : Nat} {old : Segment} {nodes : List (Nat × Node)}
    (used : tableGet s.wg.segments n = some old) (h : LoadInv s) :
    LoadInv { s with wg := { s.wg with segments := tableErase s.wg.segments n, nodes := nodes }
                     lm := discardEntry s.config.alarmLevel n s.lm } := by
  obtain ⟨e, at_n⟩ := tableGet_some_of_keys h.keys.symm used
  rw [discardEntry_used at_n]
  have before := congestedEntries_erase at_n
  exact
    { sorted := tableSorted_erase h.sorted n
      keys := tableErase_keys _ _ _ h.keys
      count := by
        have := h.count
        show (if e.congested then s.lm.congestedCount - 1 else s.lm.congestedCount)
          = congestedEntries (tableErase s.lm.entries n)
        rw [h.count, before]
        unfold counted
        split <;> omega
      live := fun p hp => h.live p (mem_erase hp)
      sampled := fun p hp => h.sampled p (mem_erase hp) }

/-- The segment table is sorted as the load entries are. -/
theorem loadInv_segments {s : State} (h : LoadInv s) : TableSorted s.wg.segments := by
  have := (tableSorted_iff_keys _).1 h.sorted
  rw [h.keys] at this
  exact (tableSorted_iff_keys _).2 this

/-! ### An applied edit keeps the name index (R16, R17) -/

theorem indexInv_filled {s : State} {n : Nat} (free : tableGet s.ds.listings n = none) (f : ListingForm)
    (h : IndexInv s) : IndexInv { s with ds := fillListing s.ds n f } where
  sorted := tableSorted_put h.sorted _ _
  ordered := by
    refine InOrder.congr (fillListing_eq h free f).2 fun m _ => ?_
    exact nameOf_putListingAt s.ds n _ m
  holds m := by
    have index : m ∈ (fillListing s.ds n f).nameIndex ↔ m = n ∨ m ∈ s.ds.nameIndex := mem_indexInsert
    rw [index, h.holds, fillListing_listings]
    by_cases same : m = n
    · subst same; simp [inUse]
    · rw [inUse, inUse, tableGet_put_other _ _ same]
      simp [same]

theorem indexInv_replaced {s : State} {n : Nat} {old : Listing} (used : tableGet s.ds.listings n = some old)
    (f : ListingForm) (h : IndexInv s) : IndexInv { s with ds := replaceListing s.ds n old f } where
  sorted := by rw [replaceListing_listings]; exact tableSorted_put h.sorted _ _
  ordered := by
    have keys : ∀ m, nameOf (replaceListing s.ds n old f) m = keysWith s.ds n f.name m := fun m => by
      rw [nameOf, replaceListing_listings]
      exact nameOf_putListingAt s.ds n { old with toListingForm := storedForm f } m
    by_cases renamed : f.name = old.name
    · show (replaceListing s.ds n old f).nameIndex.Pairwise _
      rw [replaceListing_sameKey renamed]
      refine InOrder.congr h.ordered fun m _ => (keys m).trans ?_
      unfold keysWith
      split
      · rename_i same
        rw [same, nameOf_of_get used, renamed]
      · rfl
    · exact InOrder.congr (replaceListing_eq h renamed).2 fun m _ => keys m
  holds m := by
    have table : inUse (replaceListing s.ds n old f).listings m = inUse s.ds.listings m := by
      rw [replaceListing_listings]
      exact inUse_put_same used m
    have index : m ∈ (replaceListing s.ds n old f).nameIndex ↔ m ∈ s.ds.nameIndex := by
      by_cases renamed : f.name = old.name
      · rw [replaceListing_sameKey renamed]
      · have at_n : n ∈ s.ds.nameIndex := (h.holds n).2 (by simp [inUse, used])
        unfold replaceListing
        rw [if_neg renamed, mem_indexInsert, indexRemove, mem_removeNat]
        by_cases same : m = n
        · simp [same, at_n]
        · simp [same]
    rw [index, h.holds, ← table]

theorem indexInv_restated {s : State} {n : Nat} {old l : Listing} (used : tableGet s.ds.listings n = some old)
    (name : l.name = old.name) (h : IndexInv s) : IndexInv { s with ds := putListingAt s.ds n l } where
  sorted := tableSorted_put h.sorted _ _
  ordered := InOrder.congr h.ordered fun m _ => by
    rw [nameOf_putListingAt]
    split
    · rename_i same
      rw [same, nameOf_of_get used, name]
    · rfl
  holds m := (h.holds m).trans (by rw [show (putListingAt s.ds n l).listings = tablePut s.ds.listings n l from rfl,
    inUse_put_same used])

theorem indexInv_retired {s : State} {n : Nat} (h : IndexInv s) : IndexInv { s with ds := retireListing s.ds n } where
  sorted := tableSorted_erase h.sorted n
  ordered := InOrder.congr (List.Pairwise.filter _ h.ordered) fun m hm => by
    have other : m ≠ n := by simpa using (List.mem_filter.1 hm).2
    unfold nameOf retireListing
    rw [tableGet_erase_other _ other]
  holds m := by
    have index : m ∈ (retireListing s.ds n).nameIndex ↔ m ∈ s.ds.nameIndex ∧ m ≠ n := mem_removeNat
    rw [index, h.holds]
    by_cases same : m = n
    · subst same; simp [retireListing, inUse, tableGet_erase_same h.sorted]
    · rw [show (retireListing s.ds n).listings = tableErase s.ds.listings n from rfl, inUse, inUse,
        tableGet_erase_other _ same]
      simp [same]

/-! ### An applied edit keeps the graph consistent (R44) -/

/-- Segments and adjacency lists changed together. -/
theorem graphInv_segments {s t : State} {segments : List (Nat × Segment)} {f : Nat → Node → Node}
    (forms : ∀ m x, (f m x).toNodeForm = x.toNodeForm) (config : t.config = s.config) (cs : t.cs = s.cs)
    (ds : t.ds = s.ds) (graph : t.wg = { s.wg with segments := segments, nodes := tableMap f s.wg.nodes })
    (sorted : TableSorted segments)
    (adjacency : ∀ p ∈ s.wg.nodes, (f p.1 p.2).adjacency = touching segments p.1)
    (degree : ∀ p ∈ s.wg.nodes, (f p.1 p.2).adjacency.length ≤ 6)
    (ends : ∀ p ∈ segments,
      p.2.endA ≠ p.2.endB ∧ inUse s.wg.nodes p.2.endA = true ∧ inUse s.wg.nodes p.2.endB = true)
    (floors : ∀ p ∈ segments, horizontal p.2.kind = true ↔ floorOf s.wg p.2.endA = floorOf s.wg p.2.endB)
    (h : GraphInv s) : GraphInv t := by
  have floor : ∀ n, floorOf t.wg n = floorOf s.wg n := fun n =>
    floorOf_of_form (by rw [graph]; exact tableGet_form forms _ n)
  have kind : ∀ n, kindOf t.wg n = kindOf s.wg n := fun n =>
    kindOf_of_form (by rw [graph]; exact tableGet_form forms _ n)
  have nodes : t.wg.nodes = tableMap f s.wg.nodes := by rw [graph]
  have segs : t.wg.segments = segments := by rw [graph]
  have homes : t.wg.homes = s.wg.homes := by rw [graph]
  exact
    { staged := by rw [cs]; exact h.staged
      scheduled := by rw [cs]; exact h.scheduled
      config := by rw [config]; exact h.config
      nodes := by rw [nodes]; exact tableSorted_map h.nodes _
      segments := by rw [segs]; exact sorted
      numbers := fun p hp => by
        rw [nodes] at hp
        obtain ⟨q, hq, rfl⟩ := mem_tableMap.1 hp
        exact h.numbers q hq
      adjacency := fun p hp => by
        rw [nodes] at hp
        obtain ⟨q, hq, rfl⟩ := mem_tableMap.1 hp
        rw [segs]
        exact adjacency q hq
      degree := fun p hp => by
        rw [nodes] at hp
        obtain ⟨q, hq, rfl⟩ := mem_tableMap.1 hp
        exact degree q hq
      ends := by
        rw [segs, nodes]
        simpa only [inUse_tableMap] using ends
      floors := by
        rw [segs]
        simpa only [floor] using floors
      entrances := by
        rw [ds]
        simpa only [kind] using h.entrances
      homes := by
        rw [homes]
        simpa only [kind] using h.homes }

theorem graphInv_adjacency {s : State} (h : GraphInv s) {n : Nat} {x : Node} (mem : (n, x) ∈ s.wg.nodes) :
    x.adjacency = touching s.wg.segments n := h.adjacency _ mem

theorem graphInv_ascending {s : State} (h : GraphInv s) {n : Nat} {x : Node} (mem : (n, x) ∈ s.wg.nodes) :
    x.adjacency.Pairwise (· < ·) := graphInv_adjacency h mem ▸ touching_ascending h.segments n

theorem degree_eq {wg : Graph} {n : Nat} {x : Node} (used : tableGet wg.nodes n = some x) :
    degree wg n = x.adjacency.length := by simp [degree, used]

/-- A segment put with its ends tested enters lists that have room for it. -/
theorem length_joined_le {s : State} (h : GraphInv s) {n m : Nat} {x : Node} (mem : (m, x) ∈ s.wg.nodes)
    (room : endFull s.wg n m = false) : (insertNat n x.adjacency).length ≤ 6 := by
  have notFull := mt (endFull_iff s.wg n m).2 (by simp [room])
  rw [degree_eq (tableGet_of_mem h.nodes mem)] at notFull
  have few : x.adjacency.length ≤ 6 := h.degree _ mem
  by_cases full : 6 ≤ x.adjacency.length
  · have : n ∈ x.adjacency := by
      rw [graphInv_adjacency h mem, mem_touching h.segments]
      by_contra absent
      refine notFull ⟨full, fun g at_n => ?_⟩
      by_contra named
      refine absent ⟨g, at_n, ?_⟩
      rw [touches_iff]
      simp only [ne_eq, not_and_or, not_not] at named
      exact named.imp Eq.symm Eq.symm
    rw [insertNat_of_mem (graphInv_ascending h mem) this]
    exact few
  · exact (length_insertNat_le _ _).trans (by omega)

/-- What the tests of PUT SEGMENT leave when they find nothing (R64). -/
theorem putSegmentTest_passed {wg : Graph} {n : Nat} {f : SegmentForm} (passed : putSegmentTest wg n f = none) :
    inUse wg.nodes f.endA = true ∧ inUse wg.nodes f.endB = true
      ∧ (horizontal f.kind = true ↔ floorOf wg f.endA = floorOf wg f.endB)
      ∧ endFull wg n f.endA = false ∧ endFull wg n f.endB = false := by
  unfold putSegmentTest at passed
  split at passed
  · cases passed
  · rename_i used
    split at passed
    · cases passed
    · rename_i floors
      split at passed
      · cases passed
      · rename_i room
        simp only [Bool.or_eq_true, Bool.not_eq_true', not_or, Bool.not_eq_false, Bool.not_eq_true] at used room
        refine ⟨used.1, used.2, ?_, room.1, room.2⟩
        rw [floorsFail_iff, ← horizontal_iff] at floors
        tauto

theorem touches_ends {f : SegmentForm} {m : Nat} {p : Nat → Prop} (atA : p f.endA) (atB : p f.endB)
    (named : touches f m = true) : p m := by
  rcases (touches_iff f m).1 named with rfl | rfl
  · exact atA
  · exact atB

theorem segmentFormOk_ends {n : Nat} {f : SegmentForm} (formed : segmentFormOk n f = true) : f.endA ≠ f.endB := by
  simp only [segmentFormOk, Bool.and_eq_true, bne_iff_ne, and_assoc] at formed
  exact formed.2.2.2.1

/-- A segment put, whatever stood under its number before; the old one's ends leave. -/
theorem graphInv_putSegment {s t : State} {n : Nat} {f : SegmentForm} {g : Segment} {u : Nat → Node → Node}
    (formed : segmentFormOk n f = true) (passed : putSegmentTest s.wg n f = none) (form : g.toSegmentForm = f)
    (config : t.config = s.config) (cs : t.cs = s.cs) (ds : t.ds = s.ds)
    (graph : t.wg = { s.wg with segments := tablePut s.wg.segments n g, nodes := tableMap u s.wg.nodes })
    (joins : ∀ m x, touches f m = true → u m x = relisted (insertNat n) x)
    (leaves : ∀ m x, (m, x) ∈ s.wg.nodes → touches f m = false → GraphInv s → u m x = relisted (removeNat n) x)
    (forms : ∀ m x, (u m x).toNodeForm = x.toNodeForm) (h : GraphInv s) : GraphInv t := by
  obtain ⟨usedA, usedB, floors, roomA, roomB⟩ := putSegmentTest_passed passed
  refine graphInv_segments forms config cs ds graph (tableSorted_put h.segments _ _) ?_ ?_ ?_ ?_ h
  · rintro ⟨m, x⟩ mem
    rw [touching_put h.segments, form, ← graphInv_adjacency h mem]
    by_cases named : touches f m = true
    · rw [if_pos named, joins m x named, relisted]
    · rw [if_neg named, leaves m x mem (by simpa using named) h, relisted]
  · rintro ⟨m, x⟩ mem
    by_cases named : touches f m = true
    · rw [joins m x named]
      exact length_joined_le h mem (touches_ends (p := fun e => endFull s.wg n e = false) roomA roomB named)
    · rw [leaves m x mem (by simpa using named) h]
      exact (List.length_filter_le _ _).trans (h.degree _ mem)
  · intro p hp
    rcases mem_put hp with rfl | old
    · simp only [form]
      exact ⟨segmentFormOk_ends formed, usedA, usedB⟩
    · exact h.ends p old
  · intro p hp
    rcases mem_put hp with rfl | old
    · simpa only [form] using floors
    · exact h.floors p old

theorem relisted_fresh {n : Nat} {x : Node} (fresh : n ∉ x.adjacency) : relisted (removeNat n) x = x := by
  rw [relisted, removeNat_fresh fresh]

theorem keeps_putSegment {n : Nat} {f : SegmentForm} {s : State} (formed : GraphInv s → segmentFormOk n f = true)
    (passed : putSegmentTest s.wg n f = none) : Keeps s (applyEdit (.putSegment n f) s).1 := by
  rcases at_n : tableGet s.wg.segments n with _ | old
  · rw [applyPutSegment_free at_n]
    refine { load := loadInv_filled at_n ⟨Nat.le_refl 16, show 16 ≤ 64 by decide⟩, graph := fun h => ?_ }
    refine graphInv_putSegment (s := s) (formed h) passed rfl rfl rfl rfl
      (fillSegment_eq (segmentFormOk_ends (formed h)) _ _) (fun m x named => if_pos named) ?_ ?_ h
    · intro m x mem unnamed h
      have fresh : n ∉ x.adjacency := by
        rw [graphInv_adjacency h mem]
        exact touching_fresh h.segments fun g used => by simp [at_n] at used
      rw [relisted_fresh fresh, if_neg (by simp [unnamed])]
    · intro m x
      split <;> rfl
  · rw [applyPutSegment_used at_n]
    refine { load := fun h => loadInv_replaced (loadInv_segments h) at_n rfl h, graph := fun h => ?_ }
    refine graphInv_putSegment (s := s) (formed h) passed rfl rfl rfl rfl
      (replaceSegment_eq (segmentFormOk_ends (formed h)) _ _ _) (fun m x named => if_pos named) ?_ ?_ h
    · intro m x mem unnamed h
      unfold reended
      rw [if_neg (by simp [unnamed])]
      split
      · rfl
      · rename_i other
        have fresh : n ∉ x.adjacency := by
          rw [graphInv_adjacency h mem]
          exact touching_fresh h.segments fun g used => by
            cases at_n.symm.trans used
            simpa using other
        exact (relisted_fresh fresh).symm
    · intro m x
      unfold reended
      split
      · rfl
      · split <;> rfl

theorem tableMap_same {α : Type} (t : List (Nat × α)) : tableMap (fun _ x => x) t = t := by simp [tableMap]

theorem keeps_setSegmentState {n : Nat} {state : SegmentState} {s : State} :
    Keeps s (applyEdit (.setSegmentState n state) s).1 := by
  rcases at_n : tableGet s.wg.segments n with _ | old
  · simp only [applyEdit, applySetSegmentState, at_n]
    exact .refl s
  · rw [applySetSegmentState_used at_n]
    refine { load := fun h => loadInv_replaced (loadInv_segments h) at_n rfl h, graph := fun h => ?_ }
    have mem := mem_of_tableGet at_n
    refine graphInv_segments (s := s) (f := fun _ x => x) (fun _ _ => rfl) rfl rfl rfl (by rw [tableMap_same])
      (tableSorted_put h.segments _ _) ?_ h.degree ?_ ?_ h
    · rintro ⟨m, x⟩ node
      rw [touching_put h.segments, ← graphInv_adjacency h node]
      have same : touches { old.toSegmentForm with state := state } m = touches old.toSegmentForm m := rfl
      simp only [same]
      split
      · rename_i named
        refine (insertNat_of_mem (graphInv_ascending h node) ?_).symm
        rw [graphInv_adjacency h node, mem_touching h.segments]
        exact ⟨old, at_n, named⟩
      · rename_i unnamed
        refine (removeNat_fresh ?_).symm
        rw [graphInv_adjacency h node]
        exact touching_fresh h.segments fun g used => by
          cases at_n.symm.trans used
          simpa using unnamed
    · intro p hp
      rcases mem_put hp with rfl | other
      · exact h.ends (n, old) mem
      · exact h.ends p other
    · intro p hp
      rcases mem_put hp with rfl | other
      · exact h.floors (n, old) mem
      · exact h.floors p other

theorem keeps_removeSegment {n : Nat} {s : State} : Keeps s (applyEdit (.removeSegment n) s).1 := by
  rcases at_n : tableGet s.wg.segments n with _ | old
  · simp only [applyEdit, applyRemoveSegment, at_n]
    exact .refl s
  · rw [applyRemoveSegment_used at_n]
    refine { load := loadInv_discarded at_n, graph := fun h => ?_ }
    refine graphInv_segments (s := s) (fun m x => ?_) rfl rfl rfl rfl (tableSorted_erase h.segments _) ?_ ?_
      (fun p hp => h.ends p (mem_erase hp)) (fun p hp => h.floors p (mem_erase hp)) h
    · split <;> rfl
    · rintro ⟨m, x⟩ node
      rw [touching_erase h.segments, ← graphInv_adjacency h node]
      dsimp only
      split
      · rfl
      · rename_i unnamed
        refine (removeNat_fresh ?_).symm
        rw [graphInv_adjacency h node]
        exact touching_fresh h.segments fun g used => by
          cases at_n.symm.trans used
          simpa using unnamed
    · rintro ⟨m, x⟩ node
      dsimp only
      split
      · exact (List.length_filter_le _ _).trans (h.degree _ node)
      · exact h.degree _ node

end Sys2Proof.Proofs
end

section
/-! Every edit that passes its tests keeps every invariant, and so does every step of a turn (R61 to R70, R73). -/

namespace Sys2Proof.Proofs
open Sys2Proof.Machine Sys2Proof.Safety Sys2Proof.Laws

/-! ### A node put or removed (R39, R42) -/

theorem touching_ne_nil {segments : List (Nat × Segment)} {p : Nat × Segment} (mem : p ∈ segments) {n : Nat}
    (named : touches p.2.toSegmentForm n = true) : touching segments n ≠ [] :=
  List.ne_nil_of_mem (List.mem_map_of_mem (List.mem_filter.2 ⟨mem, named⟩))

/-- No segment names a free node entry. -/
theorem touching_of_free {s : State} (h : GraphInv s) {n : Nat} (free : tableGet s.wg.nodes n = none) :
    touching s.wg.segments n = [] := by
  by_contra some_named
  obtain ⟨k, hk⟩ := List.exists_mem_of_ne_nil _ some_named
  obtain ⟨g, at_k, named⟩ := (mem_touching h.segments).1 hk
  obtain ⟨-, usedA, usedB⟩ := h.ends _ (mem_of_tableGet at_k)
  have used : inUse s.wg.nodes n = true := touches_ends (p := fun e => inUse s.wg.nodes e = true) usedA usedB named
  simp [inUse, free] at used

theorem floorOf_put (wg : Graph) (n : Nat) (x : Node) (m : Nat) :
    floorOf { wg with nodes := tablePut wg.nodes n x } m = if m = n then x.floor else floorOf wg m := by
  unfold floorOf
  split
  · rename_i same
    subst same
    simp
  · rename_i other
    rw [tableGet_put_other _ _ other]

theorem kindOf_put (wg : Graph) (n : Nat) (x : Node) (m : Nat) :
    kindOf { wg with nodes := tablePut wg.nodes n x } m = if m = n then some x.kind else kindOf wg m := by
  unfold kindOf
  split
  · rename_i same
    subst same
    simp
  · rename_i other
    rw [tableGet_put_other _ _ other]

/-- A node put with its adjacency list, on the floor of its segments and of the kind of its uses. -/
theorem graphInv_putNode {s : State} {n : Nat} {x : Node} (number : n < 2048)
    (adjacency : x.adjacency = touching s.wg.segments n) (degree : x.adjacency.length ≤ 6)
    (floor : touching s.wg.segments n ≠ [] → x.floor = floorOf s.wg n)
    (entrance : kindOf s.wg n = some .entrance → (∃ l ∈ s.ds.listings, n ∈ l.2.entrances) → x.kind = .entrance)
    (home : kindOf s.wg n = some .kiosk → (∃ a : Addr, s.wg.homes[a] = some n) → x.kind = .kiosk)
    (h : GraphInv s) : GraphInv { s with wg := { s.wg with nodes := tablePut s.wg.nodes n x } } :=
  { h with
    nodes := tableSorted_put h.nodes _ _
    numbers := fun p hp => by
      rcases mem_put hp with rfl | old
      · exact number
      · exact h.numbers p old
    adjacency := fun p hp => by
      rcases mem_put hp with rfl | old
      · exact adjacency
      · exact h.adjacency p old
    degree := fun p hp => by
      rcases mem_put hp with rfl | old
      · exact degree
      · exact h.degree p old
    ends := fun p hp => by
      obtain ⟨differ, usedA, usedB⟩ := h.ends p hp
      exact ⟨differ, inUse_put usedA, inUse_put usedB⟩
    floors := fun p hp => by
      have kept : ∀ m, touches p.2.toSegmentForm m = true →
          floorOf { s.wg with nodes := tablePut s.wg.nodes n x } m = floorOf s.wg m := fun m named => by
        rw [floorOf_put]
        split
        · rename_i same
          subst same
          exact floor (touching_ne_nil hp named)
        · rfl
      show _ ↔ floorOf { s.wg with nodes := tablePut s.wg.nodes n x } _ =
        floorOf { s.wg with nodes := tablePut s.wg.nodes n x } _
      rw [kept _ (by simp [touches]), kept _ (by simp [touches])]
      exact h.floors p hp
    entrances := fun p hp m hm => by
      show kindOf { s.wg with nodes := tablePut s.wg.nodes n x } m = _
      have before := h.entrances p hp m hm
      rw [kindOf_put]
      split
      · rename_i same
        subst same
        rw [entrance before ⟨p, hp, hm⟩]
      · exact before
    homes := fun a m ha => by
      show kindOf { s.wg with nodes := tablePut s.wg.nodes n x } m = _
      have before := h.homes a m ha
      rw [kindOf_put]
      split
      · rename_i same
        subst same
        rw [home before ⟨a, ha⟩]
      · exact before }

/-- A node removed that no segment, no listing and no home names. -/
theorem graphInv_removeNode {s : State} {n : Nat} (unnamed : touching s.wg.segments n = [])
    (entrance : ¬∃ l ∈ s.ds.listings, n ∈ l.2.entrances) (home : ¬∃ a : Addr, s.wg.homes[a] = some n)
    (h : GraphInv s) : GraphInv { s with wg := { s.wg with nodes := tableErase s.wg.nodes n } } := by
  have other_end : ∀ p ∈ s.wg.segments, ∀ m, touches p.2.toSegmentForm m = true → m ≠ n := fun p hp m named same =>
    touching_ne_nil hp (same ▸ named) unnamed
  exact
    { h with
      nodes := tableSorted_erase h.nodes n
      numbers := fun p hp => h.numbers p (mem_erase hp)
      adjacency := fun p hp => h.adjacency p (mem_erase hp)
      degree := fun p hp => h.degree p (mem_erase hp)
      ends := fun p hp => by
        obtain ⟨differ, usedA, usedB⟩ := h.ends p hp
        refine ⟨differ, ?_, ?_⟩
        · rw [inUse, tableGet_erase_other _ (other_end p hp _ (by simp [touches]))]; exact usedA
        · rw [inUse, tableGet_erase_other _ (other_end p hp _ (by simp [touches]))]; exact usedB
      floors := fun p hp => by
        have kept : ∀ m, touches p.2.toSegmentForm m = true →
            floorOf { s.wg with nodes := tableErase s.wg.nodes n } m = floorOf s.wg m := fun m named => by
          rw [floorOf, tableGet_erase_other _ (other_end p hp m named), floorOf]
        show _ ↔ floorOf { s.wg with nodes := tableErase s.wg.nodes n } _ =
          floorOf { s.wg with nodes := tableErase s.wg.nodes n } _
        rw [kept _ (by simp [touches]), kept _ (by simp [touches])]
        exact h.floors p hp
      entrances := fun p hp m hm => by
        have : m ≠ n := fun same => entrance ⟨p, hp, same ▸ hm⟩
        show Option.map _ (tableGet (tableErase s.wg.nodes n) m) = _
        rw [tableGet_erase_other _ this]
        exact h.entrances p hp m hm
      homes := fun a m ha => by
        have : m ≠ n := fun same => home ⟨a, same ▸ ha⟩
        show Option.map _ (tableGet (tableErase s.wg.nodes n) m) = _
        rw [tableGet_erase_other _ this]
        exact h.homes a m ha }

theorem kindOf_used {wg : Graph} {n : Nat} {x : Node} (used : tableGet wg.nodes n = some x) :
    kindOf wg n = some x.kind := by simp [kindOf, used]

theorem floorOf_used {wg : Graph} {n : Nat} {x : Node} (used : tableGet wg.nodes n = some x) :
    floorOf wg n = x.floor := by simp [floorOf, used]

/-- What the tests of PUT NODE leave at an in-use node when they find nothing (R64). -/
theorem putNodeTest_passed {s : State} {n : Nat} {x : Node} {f : NodeForm} (used : tableGet s.wg.nodes n = some x)
    (passed : putNodeTest s n f = none) : (x.adjacency ≠ [] → f.floor = x.floor) ∧ kindHeld s n x.kind f.kind = false := by
  simp only [putNodeTest, used] at passed
  split at passed
  · cases passed
  · rename_i floors
    split at passed
    · cases passed
    · rename_i held
      exact ⟨fun joined => by by_contra other; exact floors ⟨Ne.symm other, joined⟩, by simpa using held⟩

theorem keeps_putNode {n : Nat} {f : NodeForm} {s : State} (formed : GraphInv s → nodeFormOk n f = true)
    (passed : putNodeTest s n f = none) : Keeps s (applyEdit (.putNode n f) s).1 := by
  have number : GraphInv s → n < 2048 := fun h => by
    have := formed h
    simp only [nodeFormOk, Bool.and_eq_true, decide_eq_true_eq, and_assoc] at this
    omega
  rcases at_n : tableGet s.wg.nodes n with _ | x
  · rw [applyPutNode_free at_n]
    refine { graph := fun h => ?_ }
    have unnamed := touching_of_free h at_n
    refine graphInv_putNode (number h) unnamed.symm (Nat.zero_le 6) (fun named => absurd unnamed named) ?_ ?_ h
    · intro kind; simp [kindOf, at_n] at kind
    · intro kind; simp [kindOf, at_n] at kind
  · rw [applyPutNode_used at_n]
    obtain ⟨floors, free⟩ := putNodeTest_passed at_n passed
    have notHeld := mt (kindHeld_iff s n x.kind f.kind).2 (by simp [free])
    refine { graph := fun h => ?_ }
    have mem := mem_of_tableGet at_n
    have list := graphInv_adjacency h mem
    refine graphInv_putNode (number h) list (h.degree _ mem) (fun named => ?_) (fun kind named => ?_)
      (fun kind named => ?_) h
    · rw [floorOf_used at_n]
      exact floors (list ▸ named)
    · rw [kindOf_used at_n] at kind
      by_contra other
      exact notHeld (.inl ⟨Option.some.inj kind, other, named⟩)
    · rw [kindOf_used at_n] at kind
      by_contra other
      exact notHeld (.inr (.inl ⟨Option.some.inj kind, other, named⟩))

theorem keeps_setExit {n : Nat} {state : ExitState} {s : State} (passed : setExitTest s.wg n = none) :
    Keeps s (applyEdit (.setExit n state) s).1 := by
  rcases at_n : tableGet s.wg.nodes n with _ | x
  · simp [setExitTest, at_n] at passed
  · rw [applySetExit_used at_n]
    have exit : isExit x.kind = true := by simpa [setExitTest, at_n] using passed
    refine { graph := fun h => ?_ }
    have mem := mem_of_tableGet at_n
    have list : x.adjacency = touching s.wg.segments n := graphInv_adjacency h mem
    refine graphInv_putNode (h.numbers _ mem) list (h.degree (n, x) mem)
      (fun _ => (floorOf_used at_n).symm) (fun kind _ => ?_) (fun kind _ => ?_) h
    all_goals
      rw [kindOf_used at_n] at kind
      rw [Option.some.inj kind] at exit
      cases exit

theorem keeps_removeNode {n : Nat} {s : State} (passed : removeNodeTest s n = none) :
    Keeps s (applyEdit (.removeNode n) s).1 := by
  rcases at_n : tableGet s.wg.nodes n with _ | x
  · simp [removeNodeTest, at_n] at passed
  · have free : ¬(x.adjacency ≠ [] ∨ namedAsEntrance s.ds n = true ∨ isHome s.wg n = true) := fun held => by
      simp only [removeNodeTest, at_n] at passed
      rw [if_pos held] at passed
      cases passed
    rw [namedAsEntrance_iff, isHome_iff, not_or, not_or, not_not] at free
    obtain ⟨alone, entrance, home⟩ := free
    refine { graph := fun h => graphInv_removeNode ?_ entrance home h }
    rw [← graphInv_adjacency h (mem_of_tableGet at_n), alone]

theorem keeps_setHome {a : Addr} {node : Option Nat} {s : State} (passed : setHomeTest s.wg node = none) :
    Keeps s (applyEdit (.setHome a node) s).1 where
  graph h :=
    { h with
      homes := fun b n hb => by
        have hb : (s.wg.homes.set a.val node a.isLt)[b.val]'b.isLt = some n := hb
        rw [Vector.getElem_set] at hb
        split at hb
        · subst hb
          simp only [setHomeTest] at passed
          split at passed
          · cases passed
          · split at passed
            · cases passed
            · rename_i kind
              exact (bne_eq_false_iff_eq.1 (by simpa using kind) : kindOf s.wg n = some .kiosk)
        · exact h.homes b n hb }

/-! ### Listing edits -/

theorem putListingTest_entrances {s : State} {f : ListingForm} (passed : putListingTest s f = none) :
    ∀ n ∈ f.entrances, kindOf s.wg n = some .entrance := by
  unfold putListingTest at passed
  split at passed
  · cases passed
  · split at passed
    · cases passed
    · rename_i kinds
      simpa using kinds

/-- A listing put whose entrances are ENTRANCE nodes. -/
theorem graphInv_listing {s : State} {ds : Directory} {n : Nat} {l : Listing}
    (listings : ds.listings = tablePut s.ds.listings n l) (entrances : ∀ m ∈ l.entrances, kindOf s.wg m = some .entrance)
    (h : GraphInv s) : GraphInv { s with ds := ds } :=
  { h with
    entrances := fun p hp => by
      have hp : p ∈ ds.listings := hp
      rw [listings] at hp
      rcases mem_put hp with rfl | old
      · exact entrances
      · exact h.entrances p old }

theorem keeps_putListing {n : Nat} {f : ListingForm} {s : State} (passed : putListingTest s f = none) :
    Keeps s (applyEdit (.putListing n f) s).1 := by
  have entrances : ∀ m ∈ sortNat f.entrances, kindOf s.wg m = some .entrance := fun m hm =>
    putListingTest_entrances passed m (mem_sortNat.1 hm)
  rcases at_n : tableGet s.ds.listings n with _ | old
  · rw [applyPutListing_free at_n]
    exact { index := indexInv_filled at_n f, graph := graphInv_listing (fillListing_listings _ _ _) entrances }
  · rw [applyPutListing_used at_n]
    exact { index := indexInv_replaced at_n f
            graph := graphInv_listing (replaceListing_listings _ _ _ _) entrances }

theorem keeps_setListingStatus {n : Nat} {status : ListingStatus} {forward : Option Nat} {s : State} :
    Keeps s (applyEdit (.setListingStatus n status forward) s).1 := by
  rcases at_n : tableGet s.ds.listings n with _ | old
  · simp only [applyEdit, applySetStatus, at_n]
    exact .refl s
  · simp only [applyEdit, applySetStatus, at_n]
    exact { index := indexInv_restated at_n rfl
            graph := fun h => graphInv_listing rfl (h.entrances _ (mem_of_tableGet at_n)) h }

theorem keeps_retireListing {n : Nat} {s : State} : Keeps s (applyEdit (.retireListing n) s).1 where
  index := indexInv_retired
  graph h := { h with entrances := fun p hp => h.entrances p (mem_erase hp) }

/-! ### Any edit -/

theorem keeps_applyEdit {edit : Edit} {s : State} (passed : editTest edit s = none)
    (formed : GraphInv s → editFormed edit = true) :
    Keeps s (applyEdit edit s).1 := by
  cases edit with
  | putListing n f => exact keeps_putListing passed
  | setListingStatus n status forward => exact keeps_setListingStatus
  | retireListing n => exact keeps_retireListing
  | putNode n f => exact keeps_putNode formed passed
  | removeNode n => exact keeps_removeNode passed
  | putSegment n f => exact keeps_putSegment formed passed
  | setSegmentState n state => exact keeps_setSegmentState
  | removeSegment n => exact keeps_removeSegment
  | setExit n state => exact keeps_setExit passed
  | setHome a node => exact keeps_setHome passed
  | setConfig c => exact { graph := fun h => { h with config := formed h } }

/-! ### The steps of a turn -/

theorem drained_iff (s : State) : drained s = true ↔
    s.ec.turn = .draining ∧ s.re.work = none ∧ s.fe.work = none ∧ s.eu.unit ≠ .building := by
  simp [drained, and_assoc]

theorem keeps_withWork (w : TurnWork) (s : State) : Keeps s (withWork w s) := keeps_controller rfl id

theorem keeps_rollover (frozen : Bool) (s : State) :
    Keeps s { s with ds := { s.ds with listings := rolloverListings frozen s.ds.listings } } := by
  refine keeps_listings fun n l => ?_
  have reopened : (reopen l).name = l.name ∧ (reopen l).entrances = l.entrances := by
    unfold reopen
    split <;> exact ⟨rfl, rfl⟩
  split
  · exact reopened
  · exact reopened

/-- A turn that has drained may take the records: no engine and no build stands in its way. -/
theorem keeps_applying {s : State} {ec : EpochController} (idle : drained s = true) (expiring : ec.expiring = s.ec.expiring) : Keeps s { s with ec := ec } := by
  obtain ⟨draining, route, find, build⟩ := (drained_iff s).1 idle
  refine keeps_control (eu := s.eu) (fun h => h.latch) (fun h he => ?_) (fun _ _ => ⟨route, find⟩)
    (fun _ hu => absurd hu build) id
  have := h.expiry (expiring ▸ he)
  simp [draining] at this

theorem keeps_beginApplying {s : State} (idle : drained s = true) : Keeps s (beginApplying s) := by
  unfold beginApplying
  dsimp only
  refine .ite (fun _ => ?_) fun _ => keeps_applying idle rfl
  exact (keeps_rollover s.config.frozen s).trans (keeps_applying (s := { s with ds := _ }) idle (by rfl))

/-- The tests of an edit and its application read and write nothing of the Change Stage. -/
theorem editTest_stage (edit : Edit) (cs : ChangeStage) (s : State) : editTest edit { s with cs := cs } = editTest edit s := by
  cases edit <;> rfl

theorem applyEdit_stage (edit : Edit) (cs : ChangeStage) (s : State) : applyEdit edit { s with cs := cs } =
    ({ (applyEdit edit s).1 with cs := cs }, (applyEdit edit s).2) := by
  cases edit with
  | putListing | setListingStatus | putSegment | setSegmentState | removeSegment | setExit =>
    simp only [applyEdit, applyPutListing, applySetStatus, applyPutSegment, applySetSegmentState, applyRemoveSegment,
      applySetExit]
    split <;> rfl
  | putNode | retireListing | removeNode | setHome | setConfig => rfl

theorem keeps_takeHead (s : State) : Keeps s (takeHead s) := by
  unfold takeHead
  split
  · exact .refl s
  · rename_i x rest head
    dsimp only
    split
    · exact (keeps_dequeue head).trans (keeps_withWork _ _)
    · rename_i passed
      rw [editTest_stage] at passed
      rw [applyEdit_stage]
      have formed : GraphInv s → editFormed x.edit = true := fun h => h.staged x (head ▸ List.mem_cons_self)
      have same : (applyEdit x.edit s).1.cs = s.cs := by simp
      refine ((keeps_applyEdit passed formed).trans ?_).trans (keeps_withWork _ _)
      have out : Keeps (applyEdit x.edit s).1 _ := keeps_dequeue (same.symm ▸ head)
      rwa [same] at out

theorem weight_liveWeight {lm : LoadMonitor} (live : ∀ p ∈ lm.entries, 16 ≤ p.2.weight ∧ p.2.weight ≤ 64) (n : Nat) :
    16 ≤ liveWeight lm n ∧ liveWeight lm n ≤ 64 := by
  unfold liveWeight
  rcases at_n : tableGet lm.entries n with _ | e
  · simp
  · exact live _ (mem_of_tableGet at_n)

theorem mem_sampled (lm : LoadMonitor) (wg : Graph) {p : Nat × Segment} :
    p ∈ (sampleWeights (liveWeight lm) wg).segments ↔
      ∃ q ∈ wg.segments, (q.1, { q.2 with weight := liveWeight lm q.1 }) = p := List.mem_map

theorem keeps_sampleWeights (s : State) : Keeps s { s with wg := sampleWeights (liveWeight s.lm) s.wg } where
  load h :=
    { h with
      keys := h.keys.trans (tableMap_keys (fun n g => { g with weight := liveWeight s.lm n }) s.wg.segments).symm
      sampled := fun p hp => by
        obtain ⟨q, -, rfl⟩ := (mem_sampled s.lm s.wg).1 hp
        exact weight_liveWeight h.live _ }
  graph h :=
    { h with
      segments := tableSorted_map h.segments fun n g => { g with weight := liveWeight s.lm n }
      adjacency := fun p hp => by
        rw [h.adjacency p hp]
        simp [sampleWeights, tableMap, List.filter_map, Function.comp_def]
      ends := fun p hp => by
        obtain ⟨q, hq, rfl⟩ := (mem_sampled s.lm s.wg).1 hp
        exact h.ends q hq
      floors := fun p hp => by
        obtain ⟨q, hq, rfl⟩ := (mem_sampled s.lm s.wg).1 hp
        exact h.floors q hq }

/-- A request during a turn leaves its state. -/
theorem requestIf_turn {s : State} (turn : s.ec.turn ≠ .steady) (wanted : Bool) :
    (requestIf wanted s).ec.turn = s.ec.turn ∧ (requestIf wanted s).ec.expiring = s.ec.expiring := by
  unfold requestIf requestTurn
  split
  · split
    · exact ⟨rfl, rfl⟩
    all_goals
      rw [if_neg fun h => turn h.1]
      exact ⟨rfl, rfl⟩
  · exact ⟨rfl, rfl⟩

theorem keeps_sampleAndValidate {s : State} (applying : s.ec.turn = .applying) : Keeps s (sampleAndValidate s) := by
  unfold sampleAndValidate
  dsimp only
  set sampled : State := { s with wg := sampleWeights (liveWeight s.lm) s.wg } with hsampled
  have served : Keeps s (requestIf (duePass sampled).2 (duePass sampled).1) :=
    ((keeps_sampleWeights s).trans (keeps_passOf _ _)).trans (keeps_requestIf _ _)
  have turn : (duePass sampled).1.ec.turn = .applying := by simp [hsampled, applying]
  obtain ⟨same, -⟩ := requestIf_turn (s := (duePass sampled).1) (turn ▸ nofun) (duePass sampled).2
  have now := same.trans turn
  generalize requestIf (duePass sampled).2 (duePass sampled).1 = t at served now
  refine served.trans (keeps_control (eu := t.eu) (fun h => h.latch) (fun h he => ?_) (fun h _ => h.turn (.inl now))
    (fun h hu => ?_) id)
  · have := h.expiry he
    simp [now] at this
  · have := (h.build hu).2
    simp [now] at this

theorem keeps_repairStep (s : State) : Keeps s (repairStep s) := by
  refine (keeps_listings fun n l => ?_).trans (keeps_withWork _ _)
  unfold repairListing
  split
  · split <;> exact ⟨rfl, rfl⟩
  · exact ⟨rfl, rfl⟩

theorem keeps_floodStep (s : State) : Keeps s (floodStep s) :=
  (keeps_listings (g := fun _ l => markReach (flood .standard s.wg) (flood .stepFree s.wg) l)
    fun _ _ => ⟨rfl, rfl⟩).trans (keeps_withWork _ _)

theorem keeps_completeTurn {s : State} (validating : s.ec.turn = .validating) : Keeps s (completeTurn s) := by
  have completed : Keeps s { s with ec := completedController s.config.autoTurn s.ec } := by
    refine keeps_control (eu := s.eu) (fun h => h.latch) (fun _ _ => rfl) (fun _ ht => ?_) (fun h hu => ?_) id
    · exact absurd ht (by simp [completedController])
    · have := (h.build hu).2
      simp [validating] at this
  refine .trans ?_ (keeps_raiseFlag _ _)
  refine .trans ?_ (keeps_raiseGroups _ _)
  exact completed.trans (keeps_service { s with ec := _ } _)

/-- The controllers changed after other work, where what stood before the work bears on the engines. -/
theorem keeps_control_after {s t : State} {ec : EpochController} {eu : EvacUnit} (first : Keeps s t)
    (engine : EngineInv s → EngineInv { t with ec := ec, eu := eu })
    (tree : SearchInv t.eu.tree → SearchInv eu.tree) : Keeps s { t with ec := ec, eu := eu } where
  engine := engine
  table h := { first.table h with }
  queues h := { first.queues h with }
  masks h := first.masks h
  load h := { first.load h with }
  index h := { first.index h with }
  graph h := { first.graph h with }
  frontiers h := ⟨(first.frontiers h).search, tree (first.frontiers h).tree⟩
  stage h := { first.stage h with }

theorem completeTurn_steady (s : State) : (completeTurn s).ec.turn = .steady
    ∧ (completeTurn s).re = s.re ∧ (completeTurn s).fe = s.fe ∧ (completeTurn s).eu = s.eu := by
  simp [completeTurn, completedController]

theorem keeps_afterTurn {s : State} (validating : s.ec.turn = .validating) : Keeps s (afterTurn (completeTurn s)) := by
  have first := keeps_completeTurn validating
  obtain ⟨steady, re, fe, eu⟩ := completeTurn_steady s
  have idle : EngineInv s → (completeTurn s).re.work = none := fun h => by
    rw [re]
    exact (h.turn (.inr validating)).1
  have notBuilding : EngineInv s → (completeTurn s).eu.unit ≠ .building := fun h building => by
    rw [eu] at building
    have := (h.build building).2
    simp [validating] at this
  generalize completeTurn s = t at *
  unfold afterTurn
  split
  · rename_i latch
    refine .trans ?_ (keeps_grant _)
    exact keeps_control_after (ec := t.ec) (eu := (startBuild t).eu) first
      (fun h => (keeps_startBuild latch steady (idle h)).engine (first.engine h)) fun _ => searchInv_beginTree t.wg
  · split
    · exact keeps_control_after (ec := startWanted t.ec) (eu := t.eu) first
        (fun h => (keeps_turnBegun (s := t) (ec := startWanted t.ec) rfl rfl (notBuilding h)).engine (first.engine h)) id
    · exact first.trans (keeps_grant _)

/-! ### What a second counts -/

theorem keeps_countSecond (s : State) : Keeps s (countSecond s) := by
  have counted : Keeps s { s with ec := countAutoTurn s.service s.ec } := by
    unfold countAutoTurn
    split
    · rename_i counts
      exact keeps_control (eu := s.eu) (fun h => h.latch) (fun _ _ => counts.2.1) (fun h => h.turn) (fun h => h.build) id
    · exact .refl s
  have held : Keeps { s with ec := countAutoTurn s.service s.ec }
      { s with ec := countAutoTurn s.service s.ec, qt := { entries := s.qt.entries.map countHold } } := by
    refine keeps_mapEntries (s := { s with ec := countAutoTurn s.service s.ec }) (fun e => ?_) fun _ e _ => ?_
    · unfold countHold
      split <;> simp
    · unfold countHold busy
      cases h : e.state <;> simp [h]
  exact (counted.trans held).trans (keeps_ageReadings _)

theorem keeps_secondEvent (s : State) : Keeps s (secondEvent s) := (keeps_tickClock s).trans (keeps_countSecond _)

end Sys2Proof.Proofs
end

section
/-! Every command and every event keeps every invariant, so every step does (R16, R28, R44, R47, R66, R76, R103, R110, R131,
R164, R172). -/

namespace Sys2Proof.Proofs
open Sys2Proof.Machine Sys2Proof.Safety Sys2Proof.Laws

/-! ### Edits that a payload carries meet their form conditions -/

theorem editOf_formed {kind : EditKind} {p : List Byte} {edit : Edit} (h : editOf kind p = some edit) :
    editFormed edit = true := by
  cases kind with
  | putListing =>
    obtain ⟨f, -, h⟩ := Option.bind_eq_some_iff.1 h
    split at h
    · cases h; assumption
    · cases h
  | setListingStatus =>
    obtain ⟨f, -, h⟩ := Option.bind_eq_some_iff.1 h
    split at h
    · cases h; rfl
    · cases h
  | putNode =>
    obtain ⟨f, -, h⟩ := Option.bind_eq_some_iff.1 h
    dsimp only at h
    split at h
    · cases h; assumption
    · cases h
  | putSegment =>
    simp only [editOf] at h
    split at h
    · split at h
      · cases h; assumption
      · cases h
    · cases h
  | setConfig =>
    obtain ⟨f, -, h⟩ := Option.bind_eq_some_iff.1 h
    split at h
    · cases h; assumption
    · cases h
  | setSegmentState | setExit =>
    obtain ⟨f, -, h⟩ := Option.bind_eq_some_iff.1 h
    split at h
    · cases h; rfl
    · cases h
  | setHome =>
    obtain ⟨a, -, h⟩ := Option.bind_eq_some_iff.1 h
    split at h
    · cases h; rfl
    · split at h
      · cases h; rfl
      · cases h
  | retireListing | removeNode | removeSegment =>
    simp only [editOf] at h
    split at h
    · cases h; rfl
    · cases h

/-! ### The actions of the edit port -/

/-- An action that keeps every invariant. -/
abbrev ActKeeps (act : State → Taken) : Prop := ∀ s, Keeps s (act s).1

theorem keeps_actEdit (kind : EditKind) (p : List Byte) : ActKeeps (actEdit kind p) := fun s => by
  unfold actEdit
  split
  · exact .refl s
  · rename_i edit carried
    have formed := editOf_formed carried
    unfold takeEdit
    split
    · split
      · exact .refl s
      · rename_i passed
        exact keeps_applyEdit passed fun _ => formed
    all_goals
      split
      · exact .refl s
      · rename_i room
        exact (keeps_enqueue (by simpa using room) formed).trans (keeps_requestIf _ _)

theorem scheduledEdit_formed {p : List Byte} {edit : Edit} (h : scheduledEdit p = some edit) :
    wordAt p 0 ≤ 1439 ∧ editFormed edit = true := by
  unfold scheduledEdit at h
  split at h
  · obtain ⟨kind, -, h⟩ := Option.bind_eq_some_iff.1 h
    exact ⟨by assumption, editOf_formed h⟩
  · cases h

theorem keeps_actSchedule (p : List Byte) : ActKeeps (actSchedule p) := fun s => by
  unfold actSchedule
  split
  · exact .refl s
  · rename_i edit carried
    obtain ⟨minute, formed⟩ := scheduledEdit_formed carried
    split
    · exact .refl s
    · split
      · exact .refl s
      · rename_i room
        exact keeps_scheduleInsert (by simpa [scheduleCapacity] using room) rfl minute formed

theorem keeps_actUnschedule (p : List Byte) : ActKeeps (actUnschedule p) := fun s => by
  unfold actUnschedule
  dsimp only
  split
  · exact .refl s
  · split
    · exact keeps_unscheduled _
    · exact .refl s

theorem keeps_actTurn : ActKeeps actTurn := fun s => by
  unfold actTurn
  split
  · exact .refl s
  all_goals exact keeps_requestTurn s

theorem keeps_actLoad (p : List Byte) : ActKeeps (actLoad p) := fun s => by
  unfold actLoad
  dsimp only
  split
  · exact .refl s
  · exact keeps_takePairs _ s

theorem keeps_actSetThreshold (p : List Byte) : ActKeeps (actSetThreshold p) := fun s => by
  unfold actSetThreshold
  split
  · exact .refl s
  · split
    · exact .refl s
    · rename_i e at_n
      exact { load := loadInv_entry at_n rfl rfl id fun _ => rfl }

theorem keeps_actReadLoad (p : List Byte) : ActKeeps (actReadLoad p) := fun s => by
  unfold actReadLoad
  dsimp only
  split
  · refine .ite (fun _ => keeps_loadEntries fun n e => ?_) fun _ => .refl s
    split <;> exact ⟨rfl, rfl⟩
  · exact .refl s

theorem keeps_actReadListing (p : List Byte) : ActKeeps (actReadListing p) := fun s => by
  unfold actReadListing
  split
  · split <;> exact .refl s
  · exact .refl s

theorem keeps_actReadNode (p : List Byte) : ActKeeps (actReadNode p) := fun s => by
  unfold actReadNode
  split
  · split <;> exact .refl s
  · exact .refl s

theorem keeps_actReadSegment (p : List Byte) : ActKeeps (actReadSegment p) := fun s => by
  unfold actReadSegment
  split
  · split <;> exact .refl s
  · exact .refl s

theorem keeps_actReadStatus : ActKeeps actReadStatus := Keeps.refl

theorem keeps_atStation {p : List Byte} {f : Addr → State → Taken} (h : ∀ a, ActKeeps (f a)) :
    ActKeeps (atStation p f) := fun s => by
  unfold atStation
  split
  · exact .refl s
  · exact h _ s

theorem keeps_actReadStation (p : List Byte) : ActKeeps (actReadStation p) := keeps_atStation fun a s =>
  .ite (fun _ => keeps_updateStation {}) fun _ => .refl s

theorem keeps_actReadStationChanges : ActKeeps actReadStationChanges := fun _ => keeps_mapStations fun _ => {}

theorem keeps_actReadCounts (p : List Byte) : ActKeeps (actReadCounts p) := fun s => by
  unfold actReadCounts
  dsimp only
  split
  · refine .ite (fun _ => keeps_listings fun n l => ?_) fun _ => .refl s
    split <;> exact ⟨rfl, rfl⟩
  · exact .refl s

theorem keeps_actClearCounts : ActKeeps actClearCounts := fun _ => keeps_listings fun _ _ => ⟨rfl, rfl⟩

theorem keeps_actSetSubscription (p : List Byte) : ActKeeps (actSetSubscription p) := keeps_atStation fun a s => by
  split
  · exact .refl s
  · exact keeps_putStation (stationKept_subscription (stationAt s a) _)

theorem keeps_actDisable (p : List Byte) : ActKeeps (actDisable p) := keeps_atStation fun a s => by
  split
  · exact .refl s
  · exact keeps_disable a s

theorem keeps_actRelease (p : List Byte) : ActKeeps (actRelease p) := keeps_atStation fun a s => by
  split
  · rename_i disabled
    exact keeps_changeState_out (by simp [inService, disabled])
  · exact .refl s

theorem keeps_actResetTrunk (p : List Byte) : ActKeeps (actResetTrunk p) := fun s => by
  unfold actResetTrunk
  split
  · exact keeps_resetTrunk _ s
  · exact .refl s

theorem keeps_actSetTime (p : List Byte) : ActKeeps (actSetTime p) := fun s => by
  unfold actSetTime
  split
  · exact .refl s
  · exact keeps_setTime (by omega) s

theorem keeps_actEvacStart : ActKeeps actEvacStart := keeps_evacuationEntry

theorem keeps_actEvacClear : ActKeeps actEvacClear := fun s => by
  unfold actEvacClear
  split
  · exact .refl s
  · exact keeps_evacuationClear s

theorem keeps_withFlags (p : List Byte) {f : AttnFlags → State → State} (h : ∀ x s, Keeps s (f x s)) :
    ActKeeps (withFlags p f) := fun s => by
  unfold withFlags
  split
  · exact .refl s
  · exact h _ s

theorem keeps_actSetMask (p : List Byte) : ActKeeps (actSetMask p) := keeps_withFlags p fun _ s => keeps_port s _

theorem keeps_actAck (p : List Byte) : ActKeeps (actAck p) := keeps_withFlags p fun _ s => keeps_port s _

theorem keeps_actStartService : ActKeeps actStartService := fun s => by
  unfold actStartService
  split
  · exact Keeps.trans (keeps_service s .starting) (keeps_requestTurn { s with service := .starting })
  all_goals exact .refl s

theorem keeps_actRestart : ActKeeps actRestart := fun s => by
  unfold actRestart
  split
  · exact .refl s
  all_goals exact keeps_restart s

theorem keeps_actFullReset : ActKeeps actFullReset := keeps_fullReset

/-! ### Frames -/

theorem keeps_takeFrame {fits : List Byte → Bool} {act : List Byte → State → Taken} (h : ∀ p, ActKeeps (act p))
    (frame : List Byte) (s : State) : Keeps s (takeFrame fits act frame s) := by
  have driven : Keeps s (driveMiso (List.replicate (frame.length + 1) 0) s) := keeps_port s _
  unfold takeFrame
  dsimp only
  split
  · exact driven.trans (keeps_port _ _)
  · refine .trans ?_ (keeps_port _ _)
    have taking : Keeps s (holdPending (driveMiso (List.replicate (frame.length + 1) 0) s)) :=
      driven.trans (keeps_port (driveMiso (List.replicate (frame.length + 1) 0) s) _)
    split
    · exact taking
    · exact Keeps.trans taking (h _ (holdPending _))

theorem keeps_takeUnknown (frame : List Byte) (s : State) : Keeps s (takeUnknown frame s) :=
  .ite (fun _ => keeps_port s _) fun _ => keeps_port s _

theorem keeps_hostCommand {c : Instr} {h : HostCommand} {f : List Byte} (e : hostCommand c = some (h, f)) (p : List Byte) :
    ActKeeps (h.act p) := by
  cases c with
  | putListing | setListingStatus | retireListing | putNode | removeNode | putSegment | setSegmentState | removeSegment
  | setExit | setHome | setConfig => cases e; exact keeps_actEdit _ p
  | schedule => cases e; exact keeps_actSchedule p
  | unschedule => cases e; exact keeps_actUnschedule p
  | turn => cases e; exact keeps_actTurn
  | load => cases e; exact keeps_actLoad p
  | setThreshold => cases e; exact keeps_actSetThreshold p
  | readLoad => cases e; exact keeps_actReadLoad p
  | readListing => cases e; exact keeps_actReadListing p
  | readNode => cases e; exact keeps_actReadNode p
  | readSegment => cases e; exact keeps_actReadSegment p
  | readStatus => cases e; exact keeps_actReadStatus
  | readStation => cases e; exact keeps_actReadStation p
  | readStationChanges => cases e; exact keeps_actReadStationChanges
  | readCounts => cases e; exact keeps_actReadCounts p
  | clearCounts => cases e; exact keeps_actClearCounts
  | setSubscription => cases e; exact keeps_actSetSubscription p
  | disableStation => cases e; exact keeps_actDisable p
  | releaseStation => cases e; exact keeps_actRelease p
  | resetTrunk => cases e; exact keeps_actResetTrunk p
  | setTime => cases e; exact keeps_actSetTime p
  | evacStart => cases e; exact keeps_actEvacStart
  | evacClear => cases e; exact keeps_actEvacClear
  | setAttentionMask => cases e; exact keeps_actSetMask p
  | ackAttention => cases e; exact keeps_actAck p
  | startService => cases e; exact keeps_actStartService
  | restartService => cases e; exact keeps_actRestart
  | fullReset => cases e; exact keeps_actFullReset
  | _ => cases e

/-- A command by its kind byte is one of those that the frames name. -/
theorem hostCommandOf_command {kind : Byte} {h : HostCommand} (e : hostCommandOf kind = some h) (f : List Byte) :
    ∃ c, hostCommand c = some (h, f) := by
  unfold hostCommandOf at e
  split at e
  all_goals cases e
  exacts [⟨.putListing f, rfl⟩, ⟨.setListingStatus f, rfl⟩, ⟨.retireListing f, rfl⟩, ⟨.putNode f, rfl⟩,
    ⟨.removeNode f, rfl⟩, ⟨.putSegment f, rfl⟩, ⟨.setSegmentState f, rfl⟩, ⟨.removeSegment f, rfl⟩, ⟨.setExit f, rfl⟩,
    ⟨.setHome f, rfl⟩, ⟨.setConfig f, rfl⟩, ⟨.schedule f, rfl⟩, ⟨.unschedule f, rfl⟩, ⟨.turn f, rfl⟩, ⟨.load f, rfl⟩,
    ⟨.setThreshold f, rfl⟩, ⟨.readLoad f, rfl⟩, ⟨.readListing f, rfl⟩, ⟨.readNode f, rfl⟩, ⟨.readSegment f, rfl⟩,
    ⟨.readStatus f, rfl⟩, ⟨.readStation f, rfl⟩, ⟨.readStationChanges f, rfl⟩, ⟨.readCounts f, rfl⟩,
    ⟨.clearCounts f, rfl⟩, ⟨.setSubscription f, rfl⟩, ⟨.disableStation f, rfl⟩, ⟨.releaseStation f, rfl⟩,
    ⟨.resetTrunk f, rfl⟩, ⟨.setTime f, rfl⟩, ⟨.evacStart f, rfl⟩, ⟨.evacClear f, rfl⟩, ⟨.setAttentionMask f, rfl⟩,
    ⟨.ackAttention f, rfl⟩, ⟨.startService f, rfl⟩, ⟨.restartService f, rfl⟩, ⟨.fullReset f, rfl⟩]

theorem keeps_takeKind (kind : Byte) (frame : List Byte) (s : State) : Keeps s (takeKind kind frame s) := by
  unfold takeKind
  refine .ite (fun _ => keeps_port s _) fun _ => ?_
  split
  · rename_i c named
    obtain ⟨_, e⟩ := hostCommandOf_command named frame
    exact keeps_takeFrame (keeps_hostCommand e) frame s
  · exact keeps_takeUnknown frame s

/-! ### Every command -/

/-- A step that keeps the invariants in a part that is not held reset keeps them in any part. -/
theorem keeps_live {f : State → State} {s t : State} (h : Keeps s (f s)) (e : live f s = .next t) : Keeps s t := by
  unfold live at e
  cases e
  exact .ite (fun _ => .refl s) fun _ => h

/-- What a command that is no frame of the edit port does in a part that is not held reset. -/
theorem keeps_event {c : Instr} (notHost : hostCommand c = none) {s t : State} (e : exec c s = .next t) : Keeps s t := by
  cases c with
  | reply n => exact keeps_live (keeps_port s _) e
  | unknownCommand kind frame => exact keeps_live (keeps_takeKind kind frame s) e
  | resetAssert => cases e; exact {}
  | resetRelease => cases e; exact .ite (fun _ => keeps_fullReset s) fun _ => .refl s
  | emergencyAsserted => exact keeps_live (.whenever fun _ => keeps_recogniseAsserted s) e
  | emergencyReleased => exact keeps_live (.whenever fun _ => keeps_recogniseReleased s) e
  | emergencySample asserted => exact keeps_live (keeps_sampleLine asserted s) e
  | secondEvent => exact keeps_live (keeps_secondEvent s) e
  | minuteEvent => exact keeps_live (.whenever fun _ => keeps_secondEvent s) e
  | staleExpiry n => exact keeps_live (.whenever fun _ => keeps_secondEvent s) e
  | autoTurnExpiry =>
    refine keeps_live (.whenever fun _ => ?_) e
    exact Keeps.trans (keeps_controller (s := s) (ec := { s.ec with expiring := false }) rfl (by simp))
      (keeps_requestTurn _)
  | holdExpiry a tag =>
    change execHoldExpiry a tag s = _ at e
    refine keeps_live (f := fun s => match findEntry s.qt a tag with
      | some x => if x.state = .ready 0 then freeEntry x s else s
      | none => s) ?_ e
    split
    · rename_i x found
      exact .ite (fun ready => keeps_freeFound found (by simp [busy, ready])) fun _ => .refl s
    · exact .refl s
  | drainComplete => exact keeps_live (.whenever fun h => keeps_beginApplying h) e
  | applyStagedEdit => exact keeps_live (.whenever fun _ => keeps_takeHead s) e
  | weightSampling => exact keeps_live (.whenever fun h => keeps_sampleAndValidate h.1) e
  | relocationRepair => exact keeps_live (.whenever fun _ => keeps_repairStep s) e
  | reachabilityFloods => exact keeps_live (.whenever fun _ => keeps_floodStep s) e
  | turnComplete => exact keeps_live (.whenever fun h => keeps_afterTurn h.1) e
  | frameStart k => exact keeps_live (.whenever fun _ => keeps_startFrame k s) e
  | resetCountdownExpiry a => exact keeps_live (.whenever fun h => keeps_failAttempt h.1) e
  | notice k =>
    change execNotice k s = _ at e
    unfold execNotice at e
    refine keeps_live ?_ e
    split
    · exact .whenever fun _ => keeps_sendNotice k _ s
    · exact .refl s
  | poll k =>
    change execPoll k s = _ at e
    unfold execPoll at e
    refine keeps_live ?_ e
    split
    · exact keeps_sendPoll k _ s
    · exact .refl s
  | stationReset k =>
    change execStationReset k s = _ at e
    unfold execStationReset at e
    refine keeps_live ?_ e
    split
    · exact .whenever fun _ => keeps_sendReset (resetTarget_attached ‹_›)
    · exact .refl s
  | probe k =>
    change execProbe k s = _ at e
    unfold execProbe at e
    refine keeps_live ?_ e
    split
    · exact .whenever fun _ => keeps_sendProbe k _ s
    · exact .refl s
  | badReply k delay message => exact keeps_live (keeps_takeBytes k delay message s) e
  | replyWindowClose k => exact keeps_live (keeps_closeWindow k s) e
  | probeReply k delay | emptyReply k delay | readyReply k delay | findRequest k delay | browseRequest k delay
  | routeRequest k delay | pageRequest k delay | cancelRequest k delay | releaseRequest k delay | seenRequest k delay
  | sleepRequest k delay | wakeRequest k delay => exact keeps_live (keeps_takeContent k delay _ s) e
  | routeSearchSettle => exact keeps_live (keeps_inRoutePhase fun w work => keeps_searchStep work) e
  | exitTreeWalkStep => exact keeps_live (keeps_inRoutePhase fun w work => keeps_routeBoundary work (keeps_walkStep work)) e
  | routeFormingEnd =>
    exact keeps_live (keeps_inRoutePhase fun w work => keeps_routeBoundary work (keeps_finishRoute work)) e
  | routeEngineHalt =>
    change execRouteEngineHalt s = _ at e
    unfold execRouteEngineHalt at e
    refine keeps_live ?_ e
    split
    · exact .whenever fun _ => keeps_routeBoundary ‹_› (.refl s)
    · exact .refl s
  | findScanStep =>
    change execFindScanStep s = _ at e
    unfold execFindScanStep at e
    refine keeps_live ?_ e
    split
    · exact .whenever fun _ => keeps_scanStep ‹_›
    · exact .refl s
  | findFormingEnd =>
    change execFindFormingEnd s = _ at e
    unfold execFindFormingEnd at e
    refine keeps_live ?_ e
    split
    · exact .whenever fun _ => keeps_findBoundary ‹_› (keeps_finishFind ‹_›)
    · exact .refl s
  | findEngineHalt =>
    change execFindEngineHalt s = _ at e
    unfold execFindEngineHalt at e
    refine keeps_live ?_ e
    split
    · exact .whenever fun _ => keeps_findBoundary ‹_› (.refl s)
    · exact .refl s
  | exitTreeBuildStart => exact keeps_live (keeps_whenever_startBuild s) e
  | exitTreeSettle => exact keeps_live (.whenever fun _ => keeps_treeSettle s) e
  | exitTreeBuildComplete =>
    refine keeps_live (.whenever fun h => ?_) e
    exact Keeps.trans (keeps_unit (s := s) (eu := { s.eu with unit := .active }) (.inr (.inr ⟨rfl, h.1, rfl⟩)) rfl)
      (keeps_afterBuild (by simp))
  | replyFormed =>
    refine keeps_live ?_ e
    unfold formReply
    split
    · exact .refl s
    · exact keeps_port s _
  | _ => cases notHost

theorem keeps_exec {c : Instr} {s t : State} (e : exec c s = .next t) : Keeps s t := by
  rcases host : hostCommand c with _ | ⟨h, f⟩
  · exact keeps_event host e
  · rw [exec_host host] at e
    exact keeps_live (keeps_takeFrame (keeps_hostCommand host) f s) e

/-- A step keeps every invariant. -/
theorem keeps_step {s t : State} (e : step s = .next t) : Keeps s t := by
  unfold step at e
  split at e
  · cases e; exact .refl s
  · rename_i c rest _
    exact Keeps.trans {} (keeps_exec e)

/-! ### The invariants of the steps -/

/-- No entry is WORKING in APPLYING or VALIDATING, and no ROUTE entry in a build: its engine would have a work record. -/
theorem working_turn_build {s : State} (h : EngineInv s) {e : QueryEntry} (he : e ∈ s.qt.entries)
    (working : e.state = .working) : ¬(s.ec.turn = .applying ∨ s.ec.turn = .validating)
      ∧ (isRoute e = true → s.eu.unit ≠ .building) := by
  have withEngine : busy e = true := by simp [busy, working]
  refine ⟨fun turn => ?_, fun route building => ?_⟩
  · obtain ⟨noRoute, noFind⟩ := h.turn turn
    by_cases route : isRoute e = true
    · obtain ⟨w, work, -⟩ := h.route e he route withEngine
      simp [noRoute] at work
    · obtain ⟨w, work, -⟩ := h.find e he (by simpa using route) withEngine
      simp [noFind] at work
  · obtain ⟨w, work, -⟩ := h.route e he route withEngine
    simp [(h.build building).1] at work

/-- Settles O5: every command keeps the engines' entries; a WORKING entry has a work record, which those states exclude. -/
theorem stepKeepsEngineInv : Obligations.StepKeepsEngineInv :=
  ⟨fun _ _ h e => (keeps_step e).engine h, fun _ h _ he working => working_turn_build h he working⟩

/-- Settles O6: the table part of what every step keeps. -/
theorem stepKeepsTableInv : Obligations.StepKeepsTableInv := fun _ _ h e => (keeps_step e).table h

/-- Settles O7: the answer queues and the pending masks of what every step keeps. -/
theorem stepKeepsStationsInv : Obligations.StepKeepsStationsInv := fun _ _ e => ⟨(keeps_step e).queues, (keeps_step e).masks⟩

/-- Settles O8: the Load Monitor part of what every step keeps. -/
theorem stepKeepsLoadInv : Obligations.StepKeepsLoadInv := fun _ _ h e => (keeps_step e).load h

/-- Settles O9: the name index part of what every step keeps. -/
theorem stepKeepsIndexInv : Obligations.StepKeepsIndexInv := fun _ _ h e => (keeps_step e).index h

/-- Settles O10: the graph part of what every step keeps. -/
theorem stepKeepsGraphInv : Obligations.StepKeepsGraphInv := fun _ _ h e => (keeps_step e).graph h

/-- Settles O11: the frontiers of what every step keeps. -/
theorem stepKeepsFrontiersInv : Obligations.StepKeepsFrontiersInv := fun _ _ h e => (keeps_step e).frontiers h

/-- Settles O12: the Change Stage part of what every step keeps. -/
theorem stepKeepsStageInv : Obligations.StepKeepsStageInv := fun _ _ h e => (keeps_step e).stage h

end Sys2Proof.Proofs
end

section
/-! Every command answers a next state and leaves the queue of waiting commands alone (log 32). -/

namespace Sys2Proof.Proofs
open Sys2Proof.Machine Sys2Proof.Safety Sys2Proof.Laws

/-! ### Operations that leave the queue alone -/

/-- An operation that leaves the queue of waiting commands alone. -/
abbrev QueueFree (f : State → State) : Prop := ∀ s, (f s).pending = s.pending

theorem pending_evacuationEntry : QueueFree evacuationEntry := fun s => by simp

theorem pending_sampleLine (asserted : Bool) : QueueFree (sampleLine asserted) := fun s => by
  unfold sampleLine recogniseAsserted recogniseReleased
  split
  · rfl
  · split
    · rfl
    · split
      · simp
      · dsimp only
        split <;> simp

theorem pending_recogniseReleased : QueueFree recogniseReleased := fun s => by
  unfold recogniseReleased
  dsimp only
  split <;> simp

theorem pending_treeSettle : QueueFree treeSettle := fun s => by
  unfold treeSettle
  split <;> rfl

theorem pending_evacuationClear : QueueFree evacuationClear := fun s => by
  unfold evacuationClear
  split
  · rfl
  · split <;> simp

theorem pending_routeBoundary {w : RouteWork} {f : State → State} (h : QueueFree f) : QueueFree (routeBoundary w f) :=
  fun s => by
    unfold routeBoundary haltRoute
    split
    · split
      · simp
      · rfl
    · exact h s

theorem pending_findBoundary {w : FindWork} {f : State → State} (h : QueueFree f) : QueueFree (findBoundary w f) :=
  fun s => by
    unfold findBoundary haltFind
    split
    · split
      · simp
      · rfl
    · exact h s

theorem pending_creditAnswer (h : RouteHeader) : QueueFree (creditAnswer h) := fun s => by
  unfold creditAnswer
  split
  · split <;> rfl
  · rfl

theorem pending_finishRoute (w : RouteWork) : QueueFree (finishRoute w) := fun s => by
  unfold finishRoute
  split
  · rfl
  · simp [pending_creditAnswer _ _]

theorem pending_finishFind (w : FindWork) : QueueFree (finishFind w) := fun s => by
  unfold finishFind
  split
  · rfl
  · simp

theorem pending_settleStep (w : RouteWork) : QueueFree (settleStep w) := fun s => by
  unfold settleStep
  split
  · rfl
  · dsimp only
    split <;> rfl

theorem pending_searchStep (w : RouteWork) : QueueFree (searchStep w) := fun s => by
  unfold searchStep
  split
  · rfl
  · exact pending_routeBoundary (pending_settleStep w) s

theorem pending_walkStep (w : RouteWork) : QueueFree (walkStep w) := fun s => by
  unfold walkStep
  dsimp only
  split
  · rfl
  · split
    · rfl
    · split <;> rfl

theorem pending_inRoutePhase {phase : RoutePhase} {f : RouteWork → State → State} (h : ∀ w, QueueFree (f w)) :
    QueueFree (inRoutePhase phase f) := fun s => by
  unfold inRoutePhase
  split
  · split
    · exact h _ s
    · rfl
  · rfl

theorem pending_scanStep (w : FindWork) : QueueFree (scanStep w) := fun s => by
  unfold scanStep
  split
  · rfl
  · refine pending_findBoundary (fun s => ?_) s
    unfold scanListing
    split
    · rfl
    · split <;> rfl

theorem pending_sendReset (t : TrunkNo) (n : StationNo) : QueueFree (sendReset t n) := fun s => by simp [sendReset]

theorem pending_failAttempt (a : Addr) : QueueFree (failAttempt a) := fun s => by
  unfold failAttempt
  dsimp only
  split <;> simp

theorem pending_withSlot {a : Addr} {f : Nat → State → State} (h : ∀ place, QueueFree (f place)) :
    QueueFree (withSlot a f) := fun s => by
  unfold withSlot
  split
  · rfl
  · exact h _ _

theorem pending_admission (a : Addr) (tag : Tag) (query : Option Query) (place : Nat) :
    QueueFree (admission a tag query place) := fun s => by
  unfold admission
  split
  · rfl
  · split
    · rfl
    · split
      · rfl
      · simp [admitEntry]

theorem pending_servePage (a : Addr) (tag : Tag) (n place : Nat) : QueueFree (servePage a tag n place) := fun s => by
  unfold servePage
  split
  · rfl
  · split
    · split <;> rfl
    · rfl

theorem pending_cancelEntry (a : Addr) (tag : Tag) (place : Nat) : QueueFree (cancelEntry a tag place) := fun s => by
  unfold cancelEntry
  split
  · rfl
  · split <;> rfl

theorem pending_inServiceOnly {a : Addr} {tag : Tag} {f : Nat → State → State} (h : ∀ place, QueueFree (f place))
    (place : Nat) : QueueFree (inServiceOnly a tag f place) := fun s => by
  unfold inServiceOnly
  split
  · rfl
  · exact h place s

theorem pending_takeRequest (a : Addr) (tag : Tag) (type : RequestType) (params : List Byte) :
    QueueFree (takeRequest a tag type params) := fun s => by
  cases type with
  | find | browse | route => exact pending_withSlot (pending_admission a tag _) s
  | page => exact pending_withSlot (pending_inServiceOnly (pending_servePage a tag _)) s
  | cancel => exact pending_withSlot (pending_inServiceOnly (pending_cancelEntry a tag)) s
  | release =>
    unfold takeRequest releaseEntry
    dsimp only
    split
    · split <;> rfl
    · rfl
  | seen => rfl
  | sleep | wake => simp [takeRequest]

theorem pending_pollRequest (a : Addr) (tag : Tag) (payload : List Byte) : QueueFree (pollRequest a tag payload) :=
  fun s => by
    unfold pollRequest
    split
    · rfl
    · split
      · rfl
      · dsimp only
        rw [pending_takeRequest]
        split <;> simp

theorem pending_enableStation (a : Addr) : QueueFree (enableStation a) := fun s => by
  unfold enableStation
  split <;> simp

theorem pending_pollReply (a : Addr) (r : StationReply) : QueueFree (pollReply a r) := fun s => by
  unfold pollReply
  split
  case h_3 =>
    cases r with
    | ready => exact pending_enableStation a s
    | empty | request => rfl
  case h_1 | h_2 =>
    cases r with
    | empty => rfl
    | request tag payload => exact pending_pollRequest a tag payload s
    | ready => simp
  all_goals rfl

theorem pending_probeAnswered (a : Addr) : QueueFree (probeAnswered a) := fun s => by
  unfold probeAnswered
  split <;> simp

theorem pending_endWith (t : TrunkNo) (x : Exchange) (bits : Nat) (content : Option StationReply) :
    QueueFree (endWith t x bits content) := fun s => by
  unfold endWith
  dsimp only
  split
  · rfl
  · split
    · exact pending_probeAnswered _ _
    · rfl
    · exact pending_pollReply _ _ _
    · simp [endExchange]

theorem pending_closeWindow (t : TrunkNo) : QueueFree (closeWindow t) := fun s => by
  unfold closeWindow
  split
  · exact pending_endWith _ _ _ _ s
  · rfl

theorem pending_takeReply (t : TrunkNo) (delay length : Nat) (content : StationNo → Option StationReply) :
    QueueFree (takeReply t delay length content) := fun s => by
  unfold takeReply
  split
  · exact pending_closeWindow t s
  · split
    · exact pending_endWith _ _ _ _ s
    · rfl

theorem pending_takeContent (t : TrunkNo) (delay : Nat) (r : StationReply) : QueueFree (takeContent t delay r) :=
  pending_takeReply t delay _ _

theorem pending_takeBytes (t : TrunkNo) (delay : Nat) (message : List Byte) : QueueFree (takeBytes t delay message) :=
  fun s => by
    unfold takeBytes
    split
    · exact pending_takeReply _ _ _ _ s
    · exact pending_closeWindow t s

theorem pending_ageReadings : QueueFree ageReadings := fun s => by
  unfold ageReadings
  dsimp only
  split <;> rfl

theorem pending_secondEvent : QueueFree secondEvent := fun s => by
  unfold secondEvent countSecond
  rw [pending_ageReadings]
  unfold tickClock
  split
  · split <;> simp
  · rfl

theorem pending_beginApplying : QueueFree beginApplying := fun s => by
  unfold beginApplying
  dsimp only
  split <;> rfl

theorem pending_takeHead : QueueFree takeHead := fun s => by
  unfold takeHead
  split
  · rfl
  · dsimp only
    split
    · rfl
    · simp [withWork]

theorem pending_sampleAndValidate : QueueFree sampleAndValidate := fun s => by simp [sampleAndValidate]

theorem pending_afterTurn : QueueFree afterTurn := fun s => by
  unfold afterTurn
  split
  · simp [startBuild]
  · split <;> simp

theorem pending_completeTurn : QueueFree completeTurn := fun s => by simp [completeTurn]

/-! ### The actions of the edit port -/

/-- An action that leaves the queue of waiting commands alone. -/
abbrev ActQueueFree (act : State → Taken) : Prop := ∀ s, (act s).1.pending = s.pending

theorem pending_takeEdit (edit : Edit) (urgent : Bool) : ActQueueFree (takeEdit edit urgent) := fun s => by
  unfold takeEdit
  split
  · split
    · rfl
    · simp [done, replying]
  all_goals
    split
    · rfl
    · simp [replying]

theorem pending_actEdit (kind : EditKind) (p : List Byte) : ActQueueFree (actEdit kind p) := fun s => by
  unfold actEdit
  split
  · rfl
  · exact pending_takeEdit _ _ s

theorem pending_actSchedule (p : List Byte) : ActQueueFree (actSchedule p) := fun s => by
  unfold actSchedule
  split
  · rfl
  · split
    · rfl
    · split <;> rfl

theorem pending_actUnschedule (p : List Byte) : ActQueueFree (actUnschedule p) := fun s => by
  unfold actUnschedule
  dsimp only
  split
  · rfl
  · split <;> rfl

theorem pending_actTurn : ActQueueFree actTurn := fun s => by
  unfold actTurn
  split
  · rfl
  all_goals simp [done, replying]

theorem pending_actLoad (p : List Byte) : ActQueueFree (actLoad p) := fun s => by
  unfold actLoad
  dsimp only
  split
  · rfl
  · simp [answer, replying]

theorem pending_actSetThreshold (p : List Byte) : ActQueueFree (actSetThreshold p) := fun s => by
  unfold actSetThreshold
  split
  · rfl
  · split <;> rfl

/-- A read that may clear what it has read. -/
theorem pending_answer {c : Prop} [Decidable c] {d : List Byte} {s t : State} (h : t.pending = s.pending) :
    (answer d (if c then t else s)).1.pending = s.pending := by
  unfold answer replying
  split
  · exact h
  · rfl

theorem pending_actReadLoad (p : List Byte) : ActQueueFree (actReadLoad p) := fun s => by
  unfold actReadLoad
  dsimp only
  split
  · exact pending_answer rfl
  · rfl

theorem pending_actReadListing (p : List Byte) : ActQueueFree (actReadListing p) := fun s => by
  unfold actReadListing
  split
  · split <;> rfl
  · rfl

theorem pending_actReadNode (p : List Byte) : ActQueueFree (actReadNode p) := fun s => by
  unfold actReadNode
  split
  · split <;> rfl
  · rfl

theorem pending_actReadSegment (p : List Byte) : ActQueueFree (actReadSegment p) := fun s => by
  unfold actReadSegment
  split
  · split <;> rfl
  · rfl

theorem pending_atStation {p : List Byte} {f : Addr → State → Taken} (h : ∀ a, ActQueueFree (f a)) :
    ActQueueFree (atStation p f) := fun s => by
  unfold atStation
  split
  · rfl
  · exact h _ s

theorem pending_actReadStation (p : List Byte) : ActQueueFree (actReadStation p) :=
  pending_atStation fun _ _ => pending_answer rfl

theorem pending_actReadCounts (p : List Byte) : ActQueueFree (actReadCounts p) := fun s => by
  unfold actReadCounts
  dsimp only
  split
  · exact pending_answer rfl
  · rfl

theorem pending_actSetSubscription (p : List Byte) : ActQueueFree (actSetSubscription p) := pending_atStation fun a s => by
  split <;> rfl

theorem pending_actDisable (p : List Byte) : ActQueueFree (actDisable p) := pending_atStation fun a s => by
  split
  · rfl
  · simp only [done, replying, disable, voidExchange_frame, depart_frame]
    split <;> rfl

theorem pending_actRelease (p : List Byte) : ActQueueFree (actRelease p) := pending_atStation fun a s => by
  split
  · simp [done, replying]
  · rfl

theorem pending_actResetTrunk (p : List Byte) : ActQueueFree (actResetTrunk p) := fun s => by
  unfold actResetTrunk
  split
  · unfold resetTrunk
    dsimp only [done, replying]
    split <;> rfl
  · rfl

theorem pending_actSetTime (p : List Byte) : ActQueueFree (actSetTime p) := fun s => by
  unfold actSetTime
  split
  · rfl
  · simp [done, replying]

theorem pending_actEvacClear : ActQueueFree actEvacClear := fun s => by
  unfold actEvacClear
  split
  · rfl
  · exact pending_evacuationClear s

theorem pending_withFlags (p : List Byte) {f : AttnFlags → State → State} (h : ∀ x, QueueFree (f x)) :
    ActQueueFree (withFlags p f) := fun s => by
  unfold withFlags
  split
  · rfl
  · exact h _ s

theorem pending_actStartService : ActQueueFree actStartService := fun s => by
  unfold actStartService
  split
  · simp [done, replying]
  all_goals rfl

theorem pending_actRestart : ActQueueFree actRestart := fun s => by
  unfold actRestart
  split
  · rfl
  all_goals
    unfold restart
    dsimp only [done, replying]
    split <;> rfl

theorem pending_hostCommand {c : Instr} {h : HostCommand} {f : List Byte} (e : hostCommand c = some (h, f))
    (p : List Byte) : ActQueueFree (h.act p) := by
  cases c with
  | putListing | setListingStatus | retireListing | putNode | removeNode | putSegment | setSegmentState | removeSegment
  | setExit | setHome | setConfig => cases e; exact pending_actEdit _ p
  | schedule => cases e; exact pending_actSchedule p
  | unschedule => cases e; exact pending_actUnschedule p
  | turn => cases e; exact pending_actTurn
  | load => cases e; exact pending_actLoad p
  | setThreshold => cases e; exact pending_actSetThreshold p
  | readLoad => cases e; exact pending_actReadLoad p
  | readListing => cases e; exact pending_actReadListing p
  | readNode => cases e; exact pending_actReadNode p
  | readSegment => cases e; exact pending_actReadSegment p
  | readStation => cases e; exact pending_actReadStation p
  | readCounts => cases e; exact pending_actReadCounts p
  | setSubscription => cases e; exact pending_actSetSubscription p
  | disableStation => cases e; exact pending_actDisable p
  | releaseStation => cases e; exact pending_actRelease p
  | resetTrunk => cases e; exact pending_actResetTrunk p
  | setTime => cases e; exact pending_actSetTime p
  | evacStart => cases e; exact pending_evacuationEntry
  | evacClear => cases e; exact pending_actEvacClear
  | setAttentionMask | ackAttention => cases e; exact pending_withFlags p fun _ _ => rfl
  | startService => cases e; exact pending_actStartService
  | restartService => cases e; exact pending_actRestart
  | readStatus | readStationChanges | clearCounts | fullReset => cases e; exact fun _ => rfl
  | _ => cases e

theorem pending_takeFrame {fits : List Byte → Bool} {act : List Byte → State → Taken} (h : ∀ p, ActQueueFree (act p))
    (frame : List Byte) : QueueFree (takeFrame fits act frame) := fun s => by
  unfold takeFrame
  dsimp only
  split
  · rfl
  · unfold keepForming
    dsimp only
    split
    · rfl
    · exact h _ _

theorem pending_takeKind (kind : Byte) (frame : List Byte) : QueueFree (takeKind kind frame) := fun s => by
  unfold takeKind
  split
  · rfl
  · split
    · rename_i c named
      obtain ⟨_, e⟩ := hostCommandOf_command named frame
      exact pending_takeFrame (pending_hostCommand e) frame s
    · unfold takeUnknown
      dsimp only
      split <;> rfl

/-! ### Every command -/

/-- A step of a part that is not held reset answers a next state. -/
theorem completes_live {f : State → State} {s : State} (h : (f s).pending = s.pending) :
    ∃ t, live f s = .next t ∧ t.pending = s.pending := by
  refine ⟨_, rfl, ?_⟩
  split
  · rfl
  · exact h

theorem pending_whenever {c : Prop} [Decidable c] {f : State → State} {s : State} (h : QueueFree f) :
    (whenever c f s).pending = s.pending := by
  unfold whenever
  split
  · exact h s
  · rfl

theorem completes_event {c : Instr} (notHost : hostCommand c = none) (s : State) :
    ∃ t, exec c s = .next t ∧ t.pending = s.pending := by
  cases c with
  | reply n => exact completes_live rfl
  | unknownCommand kind frame => exact completes_live (pending_takeKind kind frame s)
  | resetAssert => exact ⟨_, rfl, rfl⟩
  | resetRelease =>
    refine ⟨_, rfl, ?_⟩
    unfold releaseReset
    split <;> rfl
  | emergencyAsserted => exact completes_live (pending_whenever fun s => by simp [recogniseAsserted])
  | emergencyReleased => exact completes_live (pending_whenever pending_recogniseReleased)
  | emergencySample asserted => exact completes_live (pending_sampleLine asserted s)
  | secondEvent => exact completes_live (pending_secondEvent s)
  | minuteEvent | staleExpiry => exact completes_live (pending_whenever pending_secondEvent)
  | autoTurnExpiry => exact completes_live (pending_whenever fun s => by simp)
  | holdExpiry a tag =>
    change ∃ t, execHoldExpiry a tag s = _ ∧ _
    unfold execHoldExpiry
    refine completes_live ?_
    split
    · split <;> rfl
    · rfl
  | drainComplete => exact completes_live (pending_whenever pending_beginApplying)
  | applyStagedEdit => exact completes_live (pending_whenever pending_takeHead)
  | weightSampling => exact completes_live (pending_whenever pending_sampleAndValidate)
  | relocationRepair | reachabilityFloods | frameStart => exact completes_live (pending_whenever fun _ => rfl)
  | turnComplete => exact completes_live (pending_whenever fun s => (pending_afterTurn _).trans (pending_completeTurn s))
  | resetCountdownExpiry a => exact completes_live (pending_whenever (pending_failAttempt a))
  | notice k =>
    change ∃ t, execNotice k s = _ ∧ _
    unfold execNotice
    refine completes_live ?_
    split
    · exact pending_whenever fun _ => rfl
    · rfl
  | probe k =>
    change ∃ t, execProbe k s = _ ∧ _
    unfold execProbe
    refine completes_live ?_
    split
    · exact pending_whenever fun _ => rfl
    · rfl
  | poll k =>
    change ∃ t, execPoll k s = _ ∧ _
    unfold execPoll
    refine completes_live ?_
    split <;> rfl
  | stationReset k =>
    change ∃ t, execStationReset k s = _ ∧ _
    unfold execStationReset
    refine completes_live ?_
    split
    · exact pending_whenever (pending_sendReset k _)
    · rfl
  | badReply k delay message => exact completes_live (pending_takeBytes k delay message s)
  | replyWindowClose k => exact completes_live (pending_closeWindow k s)
  | probeReply k delay | emptyReply k delay | readyReply k delay | findRequest k delay | browseRequest k delay
  | routeRequest k delay | pageRequest k delay | cancelRequest k delay | releaseRequest k delay | seenRequest k delay
  | sleepRequest k delay | wakeRequest k delay => exact completes_live (pending_takeContent k delay _ s)
  | routeSearchSettle => exact completes_live (pending_inRoutePhase pending_searchStep s)
  | exitTreeWalkStep =>
    exact completes_live (pending_inRoutePhase (fun w => pending_routeBoundary (pending_walkStep w)) s)
  | routeFormingEnd =>
    exact completes_live (pending_inRoutePhase (fun w => pending_routeBoundary (pending_finishRoute w)) s)
  | routeEngineHalt =>
    change ∃ t, execRouteEngineHalt s = _ ∧ _
    unfold execRouteEngineHalt
    refine completes_live ?_
    split
    · exact pending_whenever (pending_routeBoundary fun _ => rfl)
    · rfl
  | findScanStep =>
    change ∃ t, execFindScanStep s = _ ∧ _
    unfold execFindScanStep
    refine completes_live ?_
    split
    · exact pending_whenever (pending_scanStep _)
    · rfl
  | findFormingEnd =>
    change ∃ t, execFindFormingEnd s = _ ∧ _
    unfold execFindFormingEnd
    refine completes_live ?_
    split
    · exact pending_whenever (pending_findBoundary (pending_finishFind _))
    · rfl
  | findEngineHalt =>
    change ∃ t, execFindEngineHalt s = _ ∧ _
    unfold execFindEngineHalt
    refine completes_live ?_
    split
    · exact pending_whenever (pending_findBoundary fun _ => rfl)
    · rfl
  | exitTreeBuildStart => exact completes_live (pending_whenever fun _ => rfl)
  | exitTreeSettle => exact completes_live (pending_whenever pending_treeSettle)
  | exitTreeBuildComplete => exact completes_live (pending_whenever fun s => by simp)
  | replyFormed =>
    refine completes_live ?_
    unfold formReply
    split <;> rfl
  | _ => cases notHost

/-- Settles O2, by whether the command is a frame of the edit port or another event. -/
theorem everyCommandCompletes : Obligations.EveryCommandCompletes := by
  intro c s
  rcases host : hostCommand c with _ | ⟨h, f⟩
  · exact completes_event host s
  · rw [exec_host host]
    exact completes_live (pending_takeFrame (pending_hostCommand host) f s)

/-- Settles O1: the definition of a step at a queue with a front and at an empty one. -/
theorem stepTakesFrontCommand : Obligations.StepTakesFrontCommand :=
  ⟨fun _ _ _ => rfl, fun s empty => by simp [step, empty]⟩

/-! ### Reset (R146, R194) -/

/-- A part that is held reset ignores every command but the RESET pin. -/
theorem exec_held {c : Instr} {s : State} (held : s.resetHeld = true) (assert : c ≠ .resetAssert)
    (release : c ≠ .resetRelease) : exec c s = .next s := by
  cases c with
  | resetAssert => exact absurd rfl assert
  | resetRelease => exact absurd rfl release
  | holdExpiry | notice | poll | stationReset | probe | routeEngineHalt | findScanStep | findFormingEnd
  | findEngineHalt =>
    simp only [exec, execHoldExpiry, execNotice, execPoll, execStationReset, execProbe, execRouteEngineHalt,
      execFindScanStep, execFindFormingEnd, execFindEngineHalt, live_held _ held]
  | _ => exact live_held _ held

/-- Settles O3: a held part by `live`, its release and FULL RESET by the full reset, which keeps the search. -/
theorem resetHoldsAndClears : Obligations.ResetHoldsAndClears := by
  refine ⟨fun c s held assert release => ⟨exec_held held assert release, ?_, fun k sending => ?_⟩,
    fun s => ⟨rfl, ?_⟩, fun s held => ?_, fun s running => ?_, fun s ht => ?_⟩
  · simp [attnPinHigh, attnAsserted, held]
  · simp [driverEnabled, held]
  · simp [attnPinHigh, attnAsserted]
  · show Host.Outcome.next (releaseReset s) = _
    rw [releaseReset, if_pos held]
    rfl
  · show Host.Outcome.next (releaseReset s) = _
    rw [releaseReset, if_neg (by simp [running])]
  · have frame : ([0] : List Byte) = frameOf [] := rfl
    rw [frame, exec_frameOf (h := { fits := exactly 0, act := fun _ => actFullReset }) rfl ht (by simp) rfl]
    rfl

/-- Settles O4: the fields by evaluation, the invariants of a full reset each by the lemma about it. -/
theorem resetValues : Obligations.ResetValues := by
  refine ⟨⟨engineInv_reset, tableInv_reset, queuesInv_reset, masksInv_reset, loadInv_reset, indexInv_reset,
    graphInv_reset, frontiersInv_reset, stageInv_reset⟩, ?_⟩
  have homes : ∀ a : Addr, State.reset.wg.homes[a] = none := fun a => Vector.getElem_replicate _
  have trunk : ∀ t : TrunkNo, trunkAt State.reset t = Trunk.initial := fun t => Vector.getElem_replicate _
  simp only [stationAt_reset, trunk]
  simp [State.reset, Configuration.default, TurnReport.initial, Search.empty, Station.initial, Trunk.initial]

end Sys2Proof.Proofs
end

section
/-! PROOF. Edits in their payloads: the bytes of each kind of edit against its fields and its form conditions (R3, R38,
R48, R49, R73, R198). -/

namespace Sys2Proof.Proofs
open Sys2Proof.Machine Sys2Proof.Safety Sys2Proof.Laws

/-! ### Codes -/

theorem statusOf_eq_some_iff (code : Nat) (status : ListingStatus) :
    statusOf code = some status ↔ code = statusByte status := by
  unfold statusOf
  split <;> cases status <;> simp_all [statusByte]

theorem segmentKindOf_eq_some_iff (code : Nat) (kind : SegmentKind) :
    segmentKindOf code = some kind ↔ code = segmentKindByte kind := by
  unfold segmentKindOf
  split <;> cases kind <;> simp_all [segmentKindByte]

theorem directionOf_eq_some_iff (code : Nat) (direction : Direction) :
    directionOf code = some direction ↔ code = directionByte direction := by
  unfold directionOf
  split <;> cases direction <;> simp_all [directionByte]

theorem segmentStateOf_eq_some_iff (code : Nat) (state : SegmentState) :
    segmentStateOf code = some state ↔ code = segmentStateByte state := by
  unfold segmentStateOf
  split <;> cases state <;> simp_all [segmentStateByte]

theorem exitStateOf_eq_some_iff (code : Nat) (state : ExitState) :
    exitStateOf code = some state ↔ code = match state with | .usable => 0 | .blocked => 1 := by
  unfold exitStateOf
  split <;> cases state <;> simp_all

theorem noticeShareOf_eq_some_iff (code : Nat) (share : NoticeShare) :
    noticeShareOf code = some share ↔ code = match share with | .none => 0 | .eighth => 1 | .quarter => 2 | .half => 3 := by
  unfold noticeShareOf
  split <;> cases share <;> simp_all

theorem bitRateOf_eq_some_iff (code : Nat) (rate : BitRate) :
    bitRateOf code = some rate ↔ code = match rate with | .k250 => 0 | .k500 => 1 | .m1 => 2 := by
  unfold bitRateOf
  split <;> cases rate <;> simp_all

/-- The kind byte and the byte after it agree, an amenity class being at most 15 (R38). -/
theorem nodeKindOf_eq_some_iff (code extra : Nat) (kind : NodeKind) :
    nodeKindOf code extra = some kind ↔
      code = kindByte kind ∧ extra = extraByte kind ∧ ∀ c, kind = .amenity c → c ≤ 15 := by
  have exits : ∀ state : ExitState, (code = 3 ∧ exitStateOf extra = some state) ↔
      code = 3 ∧ extra = extraByte (.exit state) := fun state => by
    cases state <;> simp [exitStateOf_eq_some_iff, extraByte]
  unfold nodeKindOf
  split <;> cases kind <;> simp_all [kindByte, extraByte, and_comm]

theorem editKindOf_eq_some_iff (code : Nat) (kind : EditKind) : editKindOf code = some kind ↔ code = editCode kind := by
  unfold editKindOf
  split <;> cases kind <;> simp_all [editCode]

theorem addrOfBytes_eq_some_iff (trunk station : Nat) (a : Addr) :
    addrOfBytes trunk station = some a ↔ trunk < 6 ∧ station < 16 ∧ a.val = 16 * trunk + station := by
  unfold addrOfBytes
  split
  · simp [Fin.ext_iff, *, eq_comm]
  · simp; omega

/-! ### Form conditions of a listing -/

theorem distinct_iff (l : List Nat) : Machine.distinct l = true ↔ l.Nodup := by
  induction l with
  | nil => simp [Machine.distinct]
  | cons x rest ih => simp [Machine.distinct, ih]

theorem noDoubleSpace_iff (name : List Nat) :
    noDoubleSpace name = true ↔ ∀ i, name[i]? = some 0 → name[i + 1]? ≠ some 0 := by
  fun_induction noDoubleSpace name with
  | case1 rest => simpa using ⟨0, by simp⟩
  | case2 x rest single ih =>
    rw [ih]
    constructor
    · intro h i
      cases i with
      | zero =>
        rintro hx hy
        obtain ⟨y, hy'⟩ : ∃ tail, rest = 0 :: tail := by cases rest <;> simp_all
        exact single y (by simpa using hx) hy'
      | succ i => simpa using h i
    · exact fun h i => by simpa using h (i + 1)
  | case3 => simp

theorem nameValid_iff (name : List Nat) : nameValid name = true ↔ NameFormed name := by
  simp only [nameValid, Bool.and_eq_true, decide_eq_true_eq, List.all_eq_true, bne_iff_ne, noDoubleSpace_iff]
  exact ⟨fun ⟨⟨⟨⟨⟨h1, h2⟩, h3⟩, h4⟩, h5⟩, h6⟩ => ⟨⟨h1, h2⟩, h3, ⟨h4, h5⟩, h6⟩,
    fun ⟨⟨h1, h2⟩, h3, ⟨h4, h5⟩, h6⟩ => ⟨⟨⟨⟨⟨h1, h2⟩, h3⟩, h4⟩, h5⟩, h6⟩⟩

theorem forwardFits_iff (n : Nat) (status : ListingStatus) (forward : Option Nat) :
    forwardFits n status forward = true ↔ ForwardFormed n status forward := by
  cases status <;> cases forward <;> simp [forwardFits, ForwardFormed, and_assoc]

theorem hoursFit_iff (hours : Option Hours) :
    hoursFit hours = true ↔ ∀ h, hours = some h → h.opens ≤ 1439 ∧ h.closes ≤ 1439 ∧ h.opens ≠ h.closes := by
  cases hours <;> simp [hoursFit, and_assoc]

theorem listingNumber_iff (n : Nat) : listingNumber n = true ↔ 1 ≤ n ∧ n ≤ 1023 := by simp [listingNumber]

theorem listingFormOk_iff (n : Nat) (f : ListingForm) :
    listingFormOk n f = true ↔ 1 ≤ n ∧ n ≤ 1023 ∧ ListingFormed n f := by
  simp only [listingFormOk, Bool.and_eq_true, decide_eq_true_eq, List.all_eq_true, nameValid_iff, distinct_iff,
    forwardFits_iff, hoursFit_iff, listingNumber_iff]
  constructor
  · rintro ⟨⟨⟨⟨⟨⟨⟨⟨⟨⟨⟨⟨⟨h1, h2⟩, name⟩, c1⟩, c2⟩, c3⟩, c4⟩, floor⟩, e1⟩, e2⟩, e3⟩, e4⟩, forward⟩, hours⟩
    exact ⟨h1, h2, name, ⟨c1, c2, c3, c4⟩, floor, ⟨e1, e2, e3, e4⟩, forward, hours⟩
  · rintro ⟨h1, h2, name, ⟨c1, c2, c3, c4⟩, floor, ⟨e1, e2, e3, e4⟩, forward, hours⟩
    exact ⟨⟨⟨⟨⟨⟨⟨⟨⟨⟨⟨⟨⟨h1, h2⟩, name⟩, c1⟩, c2⟩, c3⟩, c4⟩, floor⟩, e1⟩, e2⟩, e3⟩, e4⟩, forward⟩, hours⟩

/-! ### The fields of a listing -/

theorem forward_below {n : Nat} {status : ListingStatus} {forward : Option Nat} (h : ForwardFormed n status forward) :
    withinOr 1023 forward = true := by
  unfold ForwardFormed at h
  split at h
  · obtain ⟨f, rfl, -, le, -⟩ := h; simpa [withinOr] using le
  · simp [h, withinOr]

/-- A forward that agrees with its status stands at its two bytes just when it is read from them. -/
theorem wordOrNone_forward {n : Nat} {status : ListingStatus} {forward : Option Nat}
    (formed : ForwardFormed n status forward) (p : List Byte) (i : Nat) :
    wordOrNone p i = forward ↔ wordAt p i = forward.getD 65535 := by
  have both := wordOrNone_eq_iff (limit := 1023) (by omega) p i forward
  have below := forward_below formed
  have limited : ∀ m, forward = some m → m ≤ 1023 := by rintro m rfl; simpa [withinOr] using below
  simpa only [below, and_true, iff_true_intro limited] using both

/-- The opening hours that two words spell, none for 0xFFFF twice. -/
theorem hours_of_words (opens closes : Nat) {hours : Option Hours} :
    (∀ h, hours = some h → h.opens ≤ 1439 ∧ h.closes ≤ 1439 ∧ h.opens ≠ h.closes) →
    ((if opens = 65535 ∧ closes = 65535 then none else some ({ opens := opens, closes := closes } : Hours)) = hours ↔
      opens = (match hours with | some h => h.opens | none => 65535)
        ∧ closes = match hours with | some h => h.closes | none => 65535) := by
  intro fit
  cases hours with
  | none => simp
  | some h =>
    have := fit h rfl
    obtain ⟨o, c⟩ := h
    simp only [Option.ite_none_left_eq_some, Option.some.injEq, Hours.mk.injEq] at this ⊢
    omega

theorem listingFormOf_eq_some_iff {n : Nat} {f : ListingForm} (formed : ListingFormed n f) (p : List Byte) :
    listingFormOf p = some f ↔ ListingCarried f p := by
  have hforward := wordOrNone_forward formed.forward p 5
  have hhours := hours_of_words (wordAt p 7) (wordAt p 9) formed.hours
  obtain ⟨name, categories, floor, entrances, status, forward, hours⟩ := f
  simp only at hforward hhours
  constructor
  · intro h
    simp only [listingFormOf, Option.map_eq_some_iff, ListingForm.mk.injEq] at h
    obtain ⟨st, hst, hname, hcat, hfloor, hent, rfl, hfwd, hh⟩ := h
    rw [hforward] at hfwd
    rw [hhours] at hh
    have c : byteAt p 11 = categories.length := by rw [← hcat]; simp [bytesAt]
    have e : byteAt p (12 + categories.length) = entrances.length := by rw [← hent, ← c]; simp [wordsAt]
    rw [c] at hname hent hcat
    rw [e] at hname hent
    have k : byteAt p (13 + categories.length + 2 * entrances.length) = name.length := by rw [← hname]; simp [bytesAt]
    rw [k] at hname
    exact ⟨hfloor, (statusOf_eq_some_iff _ _).1 hst, hfwd, hh.1, hh.2, c, hcat, e, hent, k, hname⟩
  · rintro ⟨hfloor, hst, hfwd, ho, hc, c, hcat, e, hent, k, hname⟩
    simp only at hfloor hst hfwd ho hc c hcat e hent k hname
    simp only [listingFormOf, c, e, k, Option.map_eq_some_iff, ListingForm.mk.injEq]
    exact ⟨status, (statusOf_eq_some_iff _ _).2 hst, hname, hcat, hfloor, hent, rfl, hforward.2 hfwd,
      hhours.2 ⟨ho, hc⟩⟩

end Sys2Proof.Proofs
end

section
/-! PROOF. The configuration in its payload, and which edit a payload carries (R48, R49, R196, R198). -/

namespace Sys2Proof.Proofs
open Sys2Proof.Machine Sys2Proof.Safety Sys2Proof.Laws

/-! ### The configuration -/

/-- The link timing check in microseconds (R49, R161). -/
theorem linkTimingOk_iff (c : Configuration) : linkTimingOk (settingsOf c) = true ↔
    max 640 (125 * c.frameLength * (match c.noticeShare with | .none => 0 | .eighth => 1 | .quarter => 2 | .half => 4))
      + 3388 * (match c.bitRate with | .k250 => 4 | .k500 => 2 | .m1 => 1) ≤ 1000 * c.frameLength := by
  have share : noticeEnd (settingsOf c) =
      125 * c.frameLength * (match c.noticeShare with | .none => 0 | .eighth => 1 | .quarter => 2 | .half => 4) := by
    rw [Nat.mul_right_comm]; rfl
  simp only [linkTimingOk, decide_eq_true_eq, pollStart, share]
  rfl

theorem configOk_iff (c : Configuration) : configOk c = true ↔ ConfigFormed c := by
  simp only [configOk, Bool.and_eq_true, Bool.or_eq_true, decide_eq_true_eq, beq_iff_eq, List.all_cons, List.all_nil,
    Bool.and_true, List.all_eq_true, linkTimingOk_iff]
  constructor
  · rintro ⟨⟨⟨⟨⟨⟨⟨⟨⟨⟨⟨⟨⟨⟨⟨⟨⟨l1, l2⟩, l3⟩, l4⟩, p1, p2, p3⟩, penalties⟩, rides⟩, m1⟩, m2⟩, m3⟩, auto⟩, e1⟩, e2⟩, e3⟩, e4⟩,
      n⟩, labels⟩, timing⟩
    exact ⟨⟨l1, l2, l3, l4⟩, by rintro v (rfl | rfl | rfl) <;> assumption, penalties, rides, ⟨m1, m2, m3⟩, auto,
      ⟨e1, e2, e3, e4⟩, ⟨n, labels⟩, timing⟩
  · rintro ⟨⟨l1, l2, l3, l4⟩, paces, penalties, rides, ⟨m1, m2, m3⟩, auto, ⟨e1, e2, e3, e4⟩, ⟨n, labels⟩, timing⟩
    exact ⟨⟨⟨⟨⟨⟨⟨⟨⟨⟨⟨⟨⟨⟨⟨⟨⟨l1, l2⟩, l3⟩, l4⟩, paces _ (.inl rfl), paces _ (.inr (.inl rfl)), paces _ (.inr (.inr rfl))⟩,
      penalties⟩, rides⟩, m1⟩, m2⟩, m3⟩, auto⟩, e1⟩, e2⟩, e3⟩, e4⟩, n⟩, labels⟩, timing⟩

theorem byteAt_lt (p : List Byte) (i : Nat) : byteAt p i < 256 := (p.getD i 0).isLt

/-- The eight floor labels, byte for byte. -/
theorem labels_carried {labels : List (Nat × Nat)} (n : labels.length = 8) (fit : ∀ l ∈ labels, l.1 ≤ 39 ∧ l.2 ≤ 39)
    (p : List Byte) :
    (List.range 8).map (fun f => (byteAt p (27 + 2 * f), byteAt p (28 + 2 * f))) = labels ↔
      ∀ f l, labels[f]? = some l → byteAt p (1 + 26 + 2 * f) = l.1 % 256 ∧ byteAt p (1 + 27 + 2 * f) = l.2 % 256 := by
  constructor
  · rintro rfl f l hl
    simp only [List.getElem?_map, Option.map_eq_some_iff] at hl
    obtain ⟨g, hg, rfl⟩ := hl
    obtain ⟨-, rfl⟩ := List.getElem?_eq_some_iff.1 hg
    have := byteAt_lt p (27 + 2 * f); have := byteAt_lt p (28 + 2 * f)
    simp only [List.getElem_range, Nat.reduceAdd] at *
    omega
  · intro h
    refine List.ext_getElem (by simp [n]) fun f h₁ h₂ => ?_
    have := h f labels[f] (List.getElem?_eq_getElem h₂)
    simp only [Nat.reduceAdd] at this
    have := fit labels[f] (List.getElem_mem h₂)
    rw [List.getElem_map, List.getElem_range]
    exact Prod.ext (by simp only; omega) (by simp only; omega)

/-- The configuration that a payload spells under a notice share and a bit rate. -/
def configRead (p : List Byte) (share : NoticeShare) (rate : BitRate) : Configuration :=
  { frameLength := byteAt p 1, noticeShare := share, bitRate := rate, faultLimit := byteAt p 4
    paceStandard := byteAt p 5, paceStepFree := byteAt p 6, paceEvacuation := byteAt p 7
    penaltyEscalator := wordAt p 8, penaltyStair := wordAt p 10, penaltyLift := wordAt p 12
    escalatorRide := byteAt p 14, stairClimb := byteAt p 15, liftWait := byteAt p 16, liftTravel := byteAt p 17
    hysteresis := byteAt p 18, staleLimit := byteAt p 19, alarmLevel := wordAt p 20, autoTurn := byteAt p 22
    effortLimit := wordAt p 23, holdTime := byteAt p 25, frozen := bitAt p 26
    labels := (List.range 8).map fun f => (byteAt p (27 + 2 * f), byteAt p (28 + 2 * f)) }

theorem configOf_read (p : List Byte) (c : Configuration) : configOf p = some c ↔ ∃ share rate,
    noticeShareOf (byteAt p 2) = some share ∧ bitRateOf (byteAt p 3) = some rate ∧ configRead p share rate = c := by
  unfold configOf
  cases noticeShareOf (byteAt p 2) <;> cases bitRateOf (byteAt p 3) <;> simp [configRead]

theorem configOf_eq_some_iff {c : Configuration} (formed : ConfigFormed c) (p : List Byte) :
    configOf p = some c ↔ ConfigFields c 1 p ∧ (c.frozen = true ↔ byteAt p 26 % 2 = 1) := by
  obtain ⟨hlink, hpaces, hpenalties, hrides, hload, hauto, hlimits, hlabels, -⟩ := formed
  have hp1 := hpaces _ (.inl rfl)
  have hp2 := hpaces _ (.inr (.inl rfl))
  have hp3 := hpaces _ (.inr (.inr rfl))
  have labels := labels_carried hlabels.1 hlabels.2 p
  have frozen : bitAt p 26 = c.frozen ↔ (c.frozen = true ↔ byteAt p 26 % 2 = 1) := by
    rw [← Bool.coe_iff_coe]; simp [bitAt]; tauto
  have words : ∀ i, wordAt p i < 65536 := fun i => by
    have := byteAt_lt p i; have := byteAt_lt p (i + 1); unfold wordAt; omega
  rw [configOf_read, ← frozen]
  constructor
  · rintro ⟨share, rate, hs, hr, rfl⟩
    rw [noticeShareOf_eq_some_iff] at hs
    rw [bitRateOf_eq_some_iff] at hr
    refine ⟨⟨?_, hs, hr, ?_, ?_, ?_, ?_, ?_, ?_, ?_, ?_, ?_, ?_, ?_, ?_, ?_, ?_, ?_, ?_, ?_, labels.1 rfl⟩, rfl⟩ <;>
      first
        | exact (Nat.mod_eq_of_lt (byteAt_lt p _)).symm
        | exact (Nat.mod_eq_of_lt (words _)).symm
  · rintro ⟨h, hf⟩
    refine ⟨c.noticeShare, c.bitRate, (noticeShareOf_eq_some_iff _ _).2 h.noticeShare,
      (bitRateOf_eq_some_iff _ _).2 h.bitRate, ?_⟩
    have hl := labels.2 h.labels
    obtain ⟨h1, -, -, h4, h5, h6, h7, h8, h9, h10, h11, h12, h13, h14, h15, h16, h17, h18, h19, h20, -⟩ := h
    cases c
    simp only [configRead, Configuration.mk.injEq, true_and, Nat.reduceAdd] at *
    refine ⟨?_, ?_, ?_, ?_, ?_, ?_, ?_, ?_, ?_, ?_, ?_, ?_, ?_, ?_, ?_, ?_, ?_, ?_, hf, hl⟩ <;> omega

/-! ### The edit of a payload -/

theorem wordOrNone_node {node : Option Nat} (p : List Byte) (i : Nat) :
    (wordOrNone p i = node ∧ ∀ n, node = some n → n ≤ 2047) ↔
      wordAt p i = node.getD 65535 ∧ ∀ n, node = some n → n ≤ 2047 := by
  rw [← wordOrNone_eq_iff (limit := 2047) (by omega)]
  cases node <;> simp [withinOr]

/-- An edit read under a condition is that edit exactly when the condition holds. -/
theorem ite_some_eq_some_iff {c : Prop} [Decidable c] {x y : Edit} :
    (if c then some x else none) = some y ↔ c ∧ x = y := by split <;> simp_all

theorem editOf_eq_some_iff (kind : EditKind) (p : List Byte) (edit : Edit) :
    editOf kind p = some edit ↔ EditCarried kind p edit := by
  cases kind with
  | putListing =>
    simp only [editOf, Option.bind_eq_some_iff, ite_some_eq_some_iff, listingFormOk_iff]
    cases edit with
    | putListing n f =>
      simp only [EditCarried, Edit.putListing.injEq, true_and]
      constructor
      · rintro ⟨g, hg, ⟨h1, h2, formed⟩, rfl, rfl⟩
        exact ⟨rfl, h1, h2, (listingFormOf_eq_some_iff formed p).1 hg, formed⟩
      · rintro ⟨rfl, h1, h2, carried, formed⟩
        exact ⟨f, (listingFormOf_eq_some_iff formed p).2 carried, ⟨h1, h2, formed⟩, rfl, rfl⟩
    | _ => simp [EditCarried]
  | setListingStatus =>
    simp only [editOf, Option.bind_eq_some_iff, ite_some_eq_some_iff, statusOf_eq_some_iff, Bool.and_eq_true,
      listingNumber_iff, forwardFits_iff]
    cases edit with
    | setListingStatus n status forward =>
      simp only [EditCarried, Edit.setListingStatus.injEq, true_and]
      constructor
      · rintro ⟨st, hst, ⟨⟨h1, h2⟩, formed⟩, rfl, rfl, rfl⟩
        exact ⟨rfl, h1, h2, hst, (wordOrNone_forward formed p 4).1 rfl, formed⟩
      · rintro ⟨rfl, h1, h2, hst, hf, formed⟩
        obtain rfl := (wordOrNone_forward formed p 4).2 hf
        exact ⟨status, hst, ⟨⟨h1, h2⟩, formed⟩, rfl, rfl, rfl⟩
    | _ => simp [EditCarried]
  | retireListing =>
    simp only [editOf, ite_some_eq_some_iff, listingNumber_iff]
    cases edit with
    | retireListing n => simp only [EditCarried, Edit.retireListing.injEq, true_and]; grind
    | _ => simp [EditCarried]
  | putNode =>
    simp only [editOf, Option.bind_eq_some_iff, ite_some_eq_some_iff, nodeKindOf_eq_some_iff, nodeFormOk,
      Bool.and_eq_true, decide_eq_true_eq]
    cases edit with
    | putNode n f =>
      obtain ⟨floor, kind, x, y⟩ := f
      simp only [EditCarried, Edit.putNode.injEq, NodeForm.mk.injEq, true_and]
      constructor
      · rintro ⟨k, ⟨hk, he, hc⟩, ⟨⟨⟨h1, h2⟩, h3⟩, h4⟩, rfl, rfl, rfl, rfl, rfl⟩
        exact ⟨rfl, h1, rfl, h2, hk, he, hc, rfl, h3, rfl, h4⟩
      · rintro ⟨rfl, h1, rfl, h2, hk, he, hc, rfl, h3, rfl, h4⟩
        exact ⟨kind, ⟨hk, he, hc⟩, ⟨⟨⟨h1, h2⟩, h3⟩, h4⟩, rfl, rfl, rfl, rfl, rfl⟩
    | _ => simp [EditCarried]
  | removeNode =>
    simp only [editOf, ite_some_eq_some_iff]
    cases edit with
    | removeNode n => simp only [EditCarried, Edit.removeNode.injEq, true_and]; grind
    | _ => simp [EditCarried]
  | putSegment =>
    have shaped : editOf .putSegment p = some edit ↔ ∃ kind direction state,
        byteAt p 9 = segmentKindByte kind ∧ byteAt p 10 = directionByte direction
          ∧ byteAt p 11 = segmentStateByte state ∧
        let f : SegmentForm := { endA := wordAt p 3, endB := wordAt p 5, length := wordAt p 7, kind := kind
                                 direction := direction, state := state }
        segmentFormOk (wordAt p 1) f = true ∧ Edit.putSegment (wordAt p 1) f = edit := by
      simp only [← segmentKindOf_eq_some_iff, ← directionOf_eq_some_iff, ← segmentStateOf_eq_some_iff, editOf]
      cases segmentKindOf (byteAt p 9) <;> cases directionOf (byteAt p 10) <;> cases segmentStateOf (byteAt p 11) <;>
        simp
    rw [shaped]
    simp only [segmentFormOk, Bool.and_eq_true, decide_eq_true_eq, bne_iff_ne]
    cases edit with
    | putSegment n f =>
      obtain ⟨endA, endB, length, kind, direction, state⟩ := f
      simp only [EditCarried, Edit.putSegment.injEq, SegmentForm.mk.injEq, true_and]
      constructor
      · rintro ⟨k, d, st, hk, hd, hs, ⟨⟨⟨⟨⟨h1, h2⟩, h3⟩, h4⟩, h5⟩, h6⟩, rfl, rfl, rfl, rfl, rfl, rfl, rfl⟩
        exact ⟨rfl, h1, rfl, h2, rfl, h3, h4, rfl, h5, h6, hk, hd, hs⟩
      · rintro ⟨rfl, h1, rfl, h2, rfl, h3, h4, rfl, h5, h6, hk, hd, hs⟩
        exact ⟨kind, direction, state, hk, hd, hs, ⟨⟨⟨⟨⟨h1, h2⟩, h3⟩, h4⟩, h5⟩, h6⟩, rfl, rfl, rfl, rfl, rfl, rfl, rfl⟩
    | _ => simp [EditCarried]
  | setSegmentState =>
    simp only [editOf, Option.bind_eq_some_iff, ite_some_eq_some_iff, segmentStateOf_eq_some_iff]
    cases edit with
    | setSegmentState n state => simp only [EditCarried, Edit.setSegmentState.injEq, true_and]; grind
    | _ => simp [EditCarried]
  | removeSegment =>
    simp only [editOf, ite_some_eq_some_iff]
    cases edit with
    | removeSegment n => simp only [EditCarried, Edit.removeSegment.injEq, true_and]; grind
    | _ => simp [EditCarried]
  | setExit =>
    simp only [editOf, Option.bind_eq_some_iff, ite_some_eq_some_iff, exitStateOf_eq_some_iff]
    cases edit with
    | setExit n state =>
      simp only [EditCarried, Edit.setExit.injEq, true_and]
      constructor
      · rintro ⟨st, hst, h, rfl, rfl⟩
        exact ⟨rfl, h, hst⟩
      · rintro ⟨rfl, h, hst⟩
        exact ⟨state, hst, h, rfl, rfl⟩
    | _ => simp [EditCarried]
  | setHome =>
    have shaped : editOf .setHome p = some edit ↔ ∃ a node, addrOfBytes (byteAt p 1) (byteAt p 2) = some a
        ∧ (wordOrNone p 3 = node ∧ ∀ n, node = some n → n ≤ 2047) ∧ Edit.setHome a node = edit := by
      simp only [editOf, Option.bind_eq_some_iff]
      cases wordOrNone p 3 with
      | none => simp
      | some n => simp
    rw [shaped]
    simp only [wordOrNone_node, addrOfBytes_eq_some_iff]
    cases edit with
    | setHome a node => simp only [EditCarried, Edit.setHome.injEq, true_and]; grind
    | _ => simp [EditCarried]
  | setConfig =>
    simp only [editOf, Option.bind_eq_some_iff, ite_some_eq_some_iff, configOk_iff]
    cases edit with
    | setConfig c =>
      simp only [EditCarried, Edit.setConfig.injEq, true_and]
      constructor
      · rintro ⟨d, hd, formed, rfl⟩
        exact ⟨((configOf_eq_some_iff formed p).1 hd).1, ((configOf_eq_some_iff formed p).1 hd).2, formed⟩
      · rintro ⟨fields, frozen, formed⟩
        exact ⟨c, (configOf_eq_some_iff formed p).2 ⟨fields, frozen⟩, formed, rfl⟩
    | _ => simp [EditCarried]

theorem urgentOf_iff (p : List Byte) : urgentOf p = true ↔ byteAt p 0 % 2 = 1 := by simp [urgentOf, bitAt]

end Sys2Proof.Proofs
end

section
/-! PROOF. Edit commands (R48, R73), SCHEDULE (R54) and the round trip of a configuration (R196, R198). -/

namespace Sys2Proof.Proofs
open Sys2Proof.Machine Sys2Proof.Safety Sys2Proof.Laws

/-! ### Bytes at their places -/

theorem byteAt_skip {before : List Byte} {i : Nat} (h : before.length = i) (d : List Byte) (j : Nat) :
    byteAt (before ++ d) (i + j) = byteAt d j := by
  subst h
  simp [byteAt, List.getElem?_append_right]

theorem byteAt_start {before : List Byte} {i : Nat} (h : before.length = i) (d : List Byte) :
    byteAt (before ++ d) i = byteAt d 0 := byteAt_skip h d 0

theorem wordAt_skip {before : List Byte} {i : Nat} (h : before.length = i) (d : List Byte) (j : Nat) :
    wordAt (before ++ d) (i + j) = wordAt d j := by
  rw [wordAt, wordAt, Nat.add_assoc, byteAt_skip h, byteAt_skip h]

@[simp] theorem byteAt_cons_zero (b : Byte) (d : List Byte) : byteAt (b :: d) 0 = b.toNat := rfl

@[simp] theorem byteAt_cons_succ (b : Byte) (d : List Byte) (i : Nat) : byteAt (b :: d) (i + 1) = byteAt d i := rfl

@[simp] theorem toNat_byteOf (n : Nat) : (byteOf n).toNat = n % 256 := by simp [byteOf]

/-- The two bytes of a number spell it again, below 65536. -/
theorem word_be16 (n : Nat) : 256 * (n / 256 % 256) + n % 256 = n % 65536 := by omega

/-- The bytes of a list of pairs. -/
theorem byteAt_pairs {labels : List (Nat × Nat)} {f : Nat} {l : Nat × Nat} (h : labels[f]? = some l) :
    byteAt (labels.map fun x => [byteOf x.1, byteOf x.2]).flatten (2 * f) = l.1 % 256
      ∧ byteAt (labels.map fun x => [byteOf x.1, byteOf x.2]).flatten (2 * f + 1) = l.2 % 256 := by
  induction labels generalizing f with
  | nil => simp at h
  | cons x rest ih =>
    cases f with
    | zero =>
      obtain rfl : x = l := by simpa using h
      simp
    | succ f => simpa [Nat.mul_add] using ih (by simpa using h)

/-- The fields of a configuration ahead of its labels. -/
def configHead (c : Configuration) : List Byte :=
  [byteOf c.frameLength, byteOf (noticeShareCode c.noticeShare), byteOf (bitRateCode c.bitRate), byteOf c.faultLimit,
   byteOf c.paceStandard, byteOf c.paceStepFree, byteOf c.paceEvacuation,
   byteOf (c.penaltyEscalator / 256), byteOf c.penaltyEscalator, byteOf (c.penaltyStair / 256), byteOf c.penaltyStair,
   byteOf (c.penaltyLift / 256), byteOf c.penaltyLift, byteOf c.escalatorRide, byteOf c.stairClimb, byteOf c.liftWait,
   byteOf c.liftTravel, byteOf c.hysteresis, byteOf c.staleLimit, byteOf (c.alarmLevel / 256), byteOf c.alarmLevel,
   byteOf c.autoTurn, byteOf (c.effortLimit / 256), byteOf c.effortLimit, byteOf c.holdTime,
   if c.frozen then 1 else 0]

theorem encodeConfig_eq (c : Configuration) :
    encodeConfig c = configHead c ++ (c.labels.map fun l => [byteOf l.1, byteOf l.2]).flatten := rfl

theorem length_encodeConfig (c : Configuration) : (encodeConfig c).length = 26 + 2 * c.labels.length := by
  rw [encodeConfig_eq]
  simp [configHead, List.length_flatten, Function.comp_def]
  omega

/-- A configuration stands at its bytes behind whatever comes before it. -/
theorem configBytes_encodeConfig (c : Configuration) {before : List Byte} {i : Nat} (h : before.length = i) :
    ConfigBytes c i (before ++ encodeConfig c) where
  labels := fun f l hl => by
    have labels := byteAt_pairs hl
    have skip : (before ++ configHead c).length = i + 26 := by simp [h, configHead]
    rw [encodeConfig_eq, ← List.append_assoc, show i + 27 + 2 * f = i + 26 + (2 * f + 1) by omega, byteAt_skip skip,
      byteAt_skip skip]
    exact labels
  frameLength := by simp [byteAt_start h, encodeConfig_eq, configHead]
  noticeShare := by rw [byteAt_skip h]; cases e : c.noticeShare <;> simp [encodeConfig_eq, configHead, noticeShareCode, e]
  bitRate := by rw [byteAt_skip h]; cases e : c.bitRate <;> simp [encodeConfig_eq, configHead, bitRateCode, e]
  faultLimit := by simp [byteAt_skip h, encodeConfig_eq, configHead]
  paceStandard := by simp [byteAt_skip h, encodeConfig_eq, configHead]
  paceStepFree := by simp [byteAt_skip h, encodeConfig_eq, configHead]
  paceEvacuation := by simp [byteAt_skip h, encodeConfig_eq, configHead]
  penaltyEscalator := by rw [wordAt_skip h]; simp [wordAt, encodeConfig_eq, configHead, word_be16]
  penaltyStair := by rw [wordAt_skip h]; simp [wordAt, encodeConfig_eq, configHead, word_be16]
  penaltyLift := by rw [wordAt_skip h]; simp [wordAt, encodeConfig_eq, configHead, word_be16]
  escalatorRide := by simp [byteAt_skip h, encodeConfig_eq, configHead]
  stairClimb := by simp [byteAt_skip h, encodeConfig_eq, configHead]
  liftWait := by simp [byteAt_skip h, encodeConfig_eq, configHead]
  liftTravel := by simp [byteAt_skip h, encodeConfig_eq, configHead]
  hysteresis := by simp [byteAt_skip h, encodeConfig_eq, configHead]
  staleLimit := by simp [byteAt_skip h, encodeConfig_eq, configHead]
  alarmLevel := by rw [wordAt_skip h]; simp [wordAt, encodeConfig_eq, configHead, word_be16]
  autoTurn := by simp [byteAt_skip h, encodeConfig_eq, configHead]
  effortLimit := by rw [wordAt_skip h]; simp [wordAt, encodeConfig_eq, configHead, word_be16]
  holdTime := by simp [byteAt_skip h, encodeConfig_eq, configHead]
  frozen := by rw [byteAt_skip h]; cases e : c.frozen <;> simp [encodeConfig_eq, configHead, e]

/-- Settles O51, from the bytes of an encoded configuration and from what applying a configuration is. -/
theorem configCarriedAndApplied : Obligations.ConfigCarriedAndApplied := by
  refine ⟨fun c flags ok => ?_, fun c s => rfl⟩
  have formed := (configOk_iff c).1 ok
  have bytes : ConfigBytes c 1 ([flags] ++ encodeConfig c) := configBytes_encodeConfig c rfl
  have frozen : byteAt (flags :: encodeConfig c) 26 = if c.frozen then 1 else 0 := bytes.frozen
  refine ⟨by simp [editFits, length_encodeConfig, formed.labels.1], ?_⟩
  refine (editOf_eq_some_iff _ _ _).2 ⟨rfl, bytes.toConfigFields, ?_, formed⟩
  cases h : c.frozen <;> simp [frozen, h]

/-! ### Edit commands -/

theorem editTest_held (edit : Edit) (n : Nat) (s : State) : editTest edit (held n s) = editTest edit s := by
  cases edit <;> rfl

theorem applyEdit_held (edit : Edit) (n : Nat) (s : State) :
    applyEdit edit (held n s) = (held n (applyEdit edit s).1, (applyEdit edit s).2) := by
  cases edit with
  | putListing | setListingStatus | putSegment | setSegmentState | removeSegment | setExit =>
    simp only [applyEdit, applyPutListing, applySetStatus, applyPutSegment, applySetSegmentState, applyRemoveSegment,
      applySetExit, held_frame]
    split <;> rfl
  | putNode | retireListing | removeNode | setHome | setConfig => rfl

theorem hostCommand_editInstr (kind : EditKind) (f : List Byte) :
    hostCommand (editInstr kind f) = some ({ fits := editFits kind, act := actEdit kind }, f) := by
  cases kind <;> rfl

section
variable {kind : EditKind} {p : List Byte} {s : State}

theorem exec_edit (ht : taking s) (size : p.length ≤ 250) (fits : editFits kind p = true) :
    exec (editInstr kind (frameOf p)) s = .next (keepForming (actEdit kind p (held (p.length + 2) s))) :=
  exec_frameOf (hostCommand_editInstr kind (frameOf p)) ht size fits

theorem actEdit_of_some {edit : Edit} (read : editOf kind p = some edit) (t : State) :
    actEdit kind p t = takeEdit edit (urgentOf p) t := by simp [actEdit, read]

theorem actEdit_of_none (read : editOf kind p = none) (t : State) : actEdit kind p t = refuse .badField t := by
  simp [actEdit, read]

end

/-- An edit outside LOADING: refused by a full queue, else staged (R48). -/
theorem takeEdit_staged {edit : Edit} {urgent : Bool} {s : State} (service : s.service ≠ .loading) :
    takeEdit edit urgent s = if 64 ≤ s.cs.queue.length then refuse .queueFull s
      else replying (stagedReply s.cs.nextSeq) (requestIf urgent { s with cs := enqueue edit s.cs }) := by
  unfold takeEdit queueFull
  cases e : s.service <;> simp_all

/-- An edit in LOADING that fails its test is refused with its reason (R73). -/
theorem takeEdit_failed {edit : Edit} {urgent : Bool} {s : State} {reason : Reason} (service : s.service = .loading)
    (failed : editTest edit s = some reason) : takeEdit edit urgent s = refuse reason s := by
  simp only [takeEdit, service, failed]

/-- An edit in LOADING that passes its test is applied at once (R73). -/
theorem takeEdit_passed {edit : Edit} {urgent : Bool} {s : State} (service : s.service = .loading)
    (passed : editTest edit s = none) : takeEdit edit urgent s = done (applyEdit edit s).1 := by
  simp only [takeEdit, service, passed]

/-- Settles O14: what a payload carries by `editOf_eq_some_iff`, and the staging of an edit by `takeEdit_staged`. -/
theorem editsStaged : Obligations.EditsStaged := by
  refine ⟨⟨editOf_eq_some_iff, urgentOf_iff, editKindOf_eq_some_iff⟩, fun kind p s ht size fits => ⟨fun unread => ?_, ?_⟩⟩
  · rw [exec_edit ht size fits, actEdit_of_none unread]
    rfl
  · intro edit read service
    have service' : (held (p.length + 2) s).service ≠ .loading := by simpa using service
    rw [exec_edit ht size fits, actEdit_of_some read, takeEdit_staged service']
    refine ⟨fun full => by rw [if_pos (by simpa using full)]; rfl, fun room => ?_⟩
    rw [if_neg (by simpa using room)]
    have staged : ({ held (p.length + 2) s with cs := enqueue edit (held (p.length + 2) s).cs } : State) =
        held (p.length + 2) { s with cs := enqueue edit s.cs } := rfl
    rw [staged, requestIf_held, keepForming_replying]
    rfl

/-- Settles O15, by whether the edit passes its test in LOADING. -/
theorem loadingAppliesEdits : Obligations.LoadingAppliesEdits := by
  intro kind p edit s ht service size fits read
  have service' : (held (p.length + 2) s).service = .loading := by simpa using service
  rw [exec_edit ht size fits, actEdit_of_some read]
  refine ⟨fun reason failed => ?_, fun passed => ?_⟩
  · rw [takeEdit_failed service' ((editTest_held ..).trans failed), keepForming_refuse]
    rfl
  · rw [takeEdit_passed service' ((editTest_held ..).trans passed), applyEdit_held]
    rfl

/-! ### SCHEDULE -/

theorem scheduledEdit_eq_some_iff (p : List Byte) (edit : Edit) : scheduledEdit p = some edit ↔
    wordAt p 0 ≤ 1439 ∧ ∃ kind, editKindOf (byteAt p 2) = some kind ∧ editOf kind (p.drop 3) = some edit := by
  unfold scheduledEdit
  split <;> simp_all [Option.bind_eq_some_iff]

theorem scheduledEdit_eq_none_iff (p : List Byte) : scheduledEdit p = none ↔
    1439 < wordAt p 0 ∨ ∀ kind, editKindOf (byteAt p 2) = some kind → editOf kind (p.drop 3) = none := by
  unfold scheduledEdit
  split
  · rw [Option.bind_eq_none_iff]; constructor
    · exact .inr
    · rintro (late | h)
      · omega
      · exact h
  · simp; omega

/-- A good SCHEDULE is refused without a clock, then by a full list, and else adds its entry (R54). -/
theorem actSchedule_of_some {p : List Byte} {edit : Edit} (read : scheduledEdit p = some edit) (n : Nat) (s : State) :
    keepForming (actSchedule p (held n s)) =
      if s.cs.clock.set = false then taken n (refusedWith 6) s
      else if 32 ≤ s.cs.schedule.length then taken n (refusedWith 5) s
      else taken n (okReply [byteOf (freeNumber s.cs.schedule)]) { s with cs := { s.cs with
        schedule := scheduleInsert { number := freeNumber s.cs.schedule, edit := edit, urgent := urgentOf (p.drop 3)
                                     minute := wordAt p 0, due := false } s.cs.schedule } } := by
  simp only [actSchedule, read, held_frame]
  cases s.cs.clock.set
  · rfl
  · by_cases full : 32 ≤ s.cs.schedule.length <;> simp [full] <;> rfl

/-- Settles O19, from the checks in their order, the lowest free number and the place by minute. -/
theorem scheduleAdds : Obligations.ScheduleAdds := by
  intro p s ht size fits
  have acts : exec (.schedule (frameOf p)) s = .next (keepForming (actSchedule p (held (p.length + 2) s))) :=
    exec_frameOf (h := { fits := scheduleFits, act := actSchedule }) rfl ht size fits
  rw [acts]
  refine ⟨fun bad => ?_, fun kind edit early hkind hedit => ?_⟩
  · rw [actSchedule, (scheduledEdit_eq_none_iff p).2 bad]
    rfl
  · rw [actSchedule_of_some ((scheduledEdit_eq_some_iff p edit).2 ⟨early, kind, hkind, hedit⟩)]
    refine ⟨fun unset => by rw [if_pos unset], fun set full => by simp [set, full], fun set room ordered => ?_⟩
    obtain ⟨low, high, unheld, least⟩ := freeNumber_spec (l := s.cs.schedule) (by omega)
    refine ⟨_, low, high, unheld, least, ?_⟩
    rw [if_neg (by simp [set]), if_neg (by omega), scheduleInsert_eq _ ordered]

end Sys2Proof.Proofs
end

section
/-! PROOF. LOAD, SET THRESHOLD, READ LOAD, READ COUNTS, CLEAR COUNTS and the attention commands (R20, R85 to R87,
R191). -/

namespace Sys2Proof.Proofs
open Sys2Proof.Machine Sys2Proof.Safety Sys2Proof.Laws

/-- An operation that does the same while a command is being taken, for it neither reads nor writes the reply. -/
abbrev HeldFree (f : State → State) : Prop := ∀ (n : Nat) (s : State), f (held n s) = held n (f s)

/-- A command that ends OK with no data, having done what it does outside a frame. -/
theorem keepForming_done {f : State → State} (h : HeldFree f) (n : Nat) (s : State) :
    keepForming (done (f (held n s))) = taken n (okReply []) (f s) := by
  rw [h]; rfl

/-! ### LOAD -/

theorem takePair_held (n q : Nat) : HeldFree (takePair n q) := fun m s => by
  unfold takePair held holdPending driveMiso; dsimp only
  split
  · rfl
  · split
    · split <;> rfl
    · split <;> rfl

theorem takePairs_eq (l : List (Nat × Nat)) (s : State) : takePairs l s = l.foldl (fun t x => takePair x.1 x.2 t) s := by
  induction l generalizing s with
  | nil => rfl
  | cons x rest ih => obtain ⟨n, q⟩ := x; exact ih _

theorem takePairs_held (l : List (Nat × Nat)) : HeldFree (takePairs l) := fun n s => by
  induction l generalizing s with
  | nil => rfl
  | cons x rest ih => obtain ⟨m, q⟩ := x; simp only [takePairs]; rw [takePair_held]; exact ih _

/-- The bytes of the pairs of a LOAD payload. -/
def pairBytes (pairs : List (Byte × Byte × Byte)) : List Byte := (pairs.map fun x => [x.1, x.2.1, x.2.2]).flatten

/-- The pairs as they are read: segment and reading. -/
def pairsRead (pairs : List (Byte × Byte × Byte)) : List (Nat × Nat) :=
  pairs.map fun x => (256 * x.1.toNat + x.2.1.toNat, x.2.2.toNat)

theorem length_pairBytes (pairs : List (Byte × Byte × Byte)) : (pairBytes pairs).length = 3 * pairs.length := by
  simp [pairBytes, List.length_flatten, Function.comp_def, Nat.mul_comm]

theorem byteAt_pairBytes {pairs : List (Byte × Byte × Byte)} {i : Nat} {x : Byte × Byte × Byte}
    (h : pairs[i]? = some x) :
    byteAt (pairBytes pairs) (3 * i) = x.1.toNat ∧ byteAt (pairBytes pairs) (3 * i + 1) = x.2.1.toNat
      ∧ byteAt (pairBytes pairs) (3 * i + 2) = x.2.2.toNat := by
  induction pairs generalizing i with
  | nil => simp at h
  | cons y rest ih =>
    cases i with
    | zero =>
      obtain rfl : y = x := by simpa using h
      simp [pairBytes]
    | succ i => simpa [pairBytes, Nat.mul_add] using ih (i := i) (by simpa using h)

theorem loadPairs_pairBytes (pairs : List (Byte × Byte × Byte)) : loadPairs (pairBytes pairs) = pairsRead pairs := by
  refine List.ext_getElem (by simp [loadPairs, pairsRead, length_pairBytes]) fun i h₁ h₂ => ?_
  have within : i < pairs.length := by simpa [pairsRead] using h₂
  obtain ⟨high, low, reading⟩ := byteAt_pairBytes (List.getElem?_eq_getElem within)
  simp [loadPairs, pairsRead, wordAt, high, low, reading]

/-- The pairs that are not taken are the others. -/
theorem length_sub_filter {α : Type} (l : List α) (p : α → Bool) :
    l.length - (l.filter p).length = (l.filter fun x => !p x).length := by
  rw [List.length_eq_length_filter_add p]; omega

theorem keepForming_actLoad (pairs : List (Byte × Byte × Byte)) (n : Nat) (s : State) :
    keepForming (actLoad (pairBytes pairs) (held n s)) =
      if 32 < pairs.length ∨ ∃ x ∈ pairsRead pairs, 4095 < x.1 then taken n (refusedWith 1) s
      else taken n (okReply [byteOf ((pairsRead pairs).filter fun x => inUse s.lm.entries x.1).length,
          byteOf ((pairsRead pairs).filter fun x => !inUse s.lm.entries x.1).length])
        ((pairsRead pairs).foldl (fun t x => takePair x.1 x.2 t) s) := by
  have size : (pairsRead pairs).length = pairs.length := by simp [pairsRead]
  simp only [actLoad, loadPairs_pairBytes, size, List.any_eq_true, decide_eq_true_eq, held_frame, takePairs_held,
    ← size ▸ length_sub_filter (pairsRead pairs) fun x => inUse s.lm.entries x.1, ← takePairs_eq]
  split <;> rfl

/-- Settles O26, from what one pair does by whether its segment is in use, and from the pairs of a payload. -/
theorem readingsTaken : Obligations.ReadingsTaken := by
  refine ⟨fun n q s => ⟨fun free => takePair_free free q, fun e used => takePair_used used q⟩, fun pairs s ht size => ?_⟩
  have acts : exec (.load (frameOf (pairBytes pairs))) s =
      .next (keepForming (actLoad (pairBytes pairs) (held ((pairBytes pairs).length + 2) s))) :=
    exec_frameOf (h := { fits := fun p => decide (p.length % 3 = 0), act := actLoad }) rfl ht
      (by rw [length_pairBytes]; exact size) (by simp [length_pairBytes])
  rw [keepForming_actLoad] at acts
  refine ⟨fun bad => ?_, fun few within => ?_⟩
  · have refused : 32 < pairs.length ∨ ∃ x ∈ pairsRead pairs, 4095 < x.1 := bad
    rw [if_pos refused] at acts
    exact acts
  · rw [if_neg] at acts
    · exact acts
    · rintro (many | ⟨x, hx, above⟩)
      · omega
      · exact absurd (within x hx) (by omega)

/-! ### Thresholds, spans and counts -/

theorem bitAt_iff (p : List Byte) (i : Nat) : bitAt p i = true ↔ byteAt p i % 2 = 1 := by simp [bitAt]

theorem spanOk_iff (low high limit first span : Nat) : spanOk low high limit first span = true ↔
    low ≤ first ∧ first ≤ high ∧ 1 ≤ span ∧ span ≤ limit ∧ first + span ≤ high + 1 := by
  simp [spanOk, and_assoc]

theorem changeSpan_eq {α : Type} (f : α → α) (first span : Nat) (t : List (Nat × α)) : changeSpan f first span t =
    t.map fun x => if first ≤ x.1 ∧ x.1 < first + span then (x.1, f x.2) else x := by
  refine List.map_congr_left fun x _ => ?_
  dsimp only
  split <;> rfl

theorem byte_zero_iff (b : Byte) : b.toNat = 0 ↔ b = 0 := BitVec.toNat_inj (y := 0)

theorem one_le_byte_iff (b : Byte) : 1 ≤ b.toNat ↔ b ≠ 0 := by
  rw [Ne, ← byte_zero_iff]; omega

section
variable (a b c : Byte) (n : Nat) (s : State)

theorem keepForming_actSetThreshold : keepForming (actSetThreshold [a, b, c] (held n s)) =
    if 4095 < 256 * a.toNat + b.toNat ∨ c = 0 then taken n (refusedWith 1) s
    else match tableGet s.lm.entries (256 * a.toNat + b.toNat) with
      | none => taken n (refusedWith 7) s
      | some e => taken n (okReply []) { s with lm := { s.lm with
          entries := tablePut s.lm.entries (256 * a.toNat + b.toNat) { e with threshold := c.toNat } } } := by
  have number : wordAt [a, b, c] 0 = 256 * a.toNat + b.toNat := rfl
  have threshold : byteAt [a, b, c] 2 = c.toNat := rfl
  simp only [actSetThreshold, number, threshold, byte_zero_iff, held_frame]
  split
  · rfl
  · cases tableGet s.lm.entries (256 * a.toNat + b.toNat) <;> rfl

variable (d : Byte)

theorem keepForming_actReadLoad : keepForming (actReadLoad [a, b, c, d] (held n s)) =
    if 256 * a.toNat + b.toNat ≤ 4095 ∧ 1 ≤ c.toNat ∧ c.toNat ≤ 30 ∧ 256 * a.toNat + b.toNat + c.toNat ≤ 4096 then
      taken n (okReply (be16 s.lm.congestedCount ++ ((s.lm.entries.filter fun x =>
          decide (256 * a.toNat + b.toNat ≤ x.1) && decide (x.1 < 256 * a.toNat + b.toNat + c.toNat)).map
            fun x => encodeLoad x.1 x.2).flatten))
        (if d.toNat % 2 = 1 then { s with lm := { s.lm with entries := s.lm.entries.map fun x =>
          if 256 * a.toNat + b.toNat ≤ x.1 ∧ x.1 < 256 * a.toNat + b.toNat + c.toNat then
            (x.1, { x.2 with episodes := 0 }) else x } } else s)
    else taken n (refusedWith 1) s := by
  have number : wordAt [a, b, c, d] 0 = 256 * a.toNat + b.toNat := rfl
  have span : byteAt [a, b, c, d] 2 = c.toNat := rfl
  have option : byteAt [a, b, c, d] 3 = d.toNat := rfl
  simp only [actReadLoad, number, span, bitAt_iff, option, spanOk_iff, Nat.zero_le, true_and, held_frame, changeSpan_eq,
    tableSpan]
  split
  · by_cases clear : d.toNat % 2 = 1
    · simp only [clear, if_true]; rfl
    · simp only [clear, if_false]; rfl
  · rfl

theorem keepForming_actReadCounts : keepForming (actReadCounts [a, b, c, d] (held n s)) =
    if 1 ≤ 256 * a.toNat + b.toNat ∧ 256 * a.toNat + b.toNat ≤ 1023 ∧ 1 ≤ c.toNat ∧ c.toNat ≤ 60
        ∧ 256 * a.toNat + b.toNat + c.toNat ≤ 1024 then
      taken n (okReply ((s.ds.listings.filter fun x =>
          decide (256 * a.toNat + b.toNat ≤ x.1) && decide (x.1 < 256 * a.toNat + b.toNat + c.toNat)).map
            fun x => be16 x.1 ++ be16 x.2.popularity).flatten)
        (if d.toNat % 2 = 1 then { s with ds := { s.ds with listings := s.ds.listings.map fun x =>
          if 256 * a.toNat + b.toNat ≤ x.1 ∧ x.1 < 256 * a.toNat + b.toNat + c.toNat then
            (x.1, { x.2 with popularity := 0 }) else x } } else s)
    else taken n (refusedWith 1) s := by
  have number : wordAt [a, b, c, d] 0 = 256 * a.toNat + b.toNat := rfl
  have span : byteAt [a, b, c, d] 2 = c.toNat := rfl
  have option : byteAt [a, b, c, d] 3 = d.toNat := rfl
  simp only [actReadCounts, number, span, bitAt_iff, option, spanOk_iff, held_frame, changeSpan_eq, tableSpan]
  split
  · by_cases clear : d.toNat % 2 = 1
    · simp only [clear, if_true]; rfl
    · simp only [clear, if_false]; rfl
  · rfl

end

/-- The record of a load entry stands at its bytes. -/
theorem loadBytes_encodeLoad (n : Nat) (e : LoadEntry) : LoadBytes n e (encodeLoad n e) where
  size := rfl
  number := by simp [wordAt, encodeLoad, be16, word_be16]
  reading := by simp [encodeLoad, be16]
  threshold := by simp [encodeLoad, be16]
  age := by simp [encodeLoad, be16]
  weight := by simp [encodeLoad, be16]
  episodes := by simp [encodeLoad, be16]
  state := by cases f : e.freshness <;> cases c : e.congested <;> simp [encodeLoad, be16, freshnessCode, f, c]

/-- Settles O27, from the reply of each command in each case. -/
theorem thresholdsAndLoadsRead : Obligations.ThresholdsAndLoadsRead := by
  intro a b c s ht n
  have sets : exec (.setThreshold (frameOf [a, b, c])) s = .next (keepForming (actSetThreshold [a, b, c] (held 5 s))) :=
    exec_frameOf (h := { fits := exactly 3, act := actSetThreshold }) rfl ht (by simp) rfl
  have reads : ∀ d, exec (.readLoad (frameOf [a, b, c, d])) s =
      .next (keepForming (actReadLoad [a, b, c, d] (held 6 s))) := fun d =>
    exec_frameOf (h := { fits := exactly 4, act := actReadLoad }) rfl ht (by simp) rfl
  rw [keepForming_actSetThreshold] at sets
  simp only [keepForming_actReadLoad] at reads
  refine ⟨fun bad => ?_, fun low threshold free => ?_, fun e low threshold used => ?_, fun d bad => ?_,
    fun d span short within => ⟨fun x _ => loadBytes_encodeLoad x.1 x.2, fun even => ?_, fun odd => ?_⟩⟩
  · rw [sets, if_pos bad]
  · rw [sets, if_neg (not_or.2 ⟨by omega, threshold⟩), show tableGet s.lm.entries (256 * a.toNat + b.toNat) = none from free]
  · rw [sets, if_neg (not_or.2 ⟨by omega, threshold⟩), show tableGet s.lm.entries (256 * a.toNat + b.toNat) = some e from used]
  · rw [reads, if_neg]
    rintro ⟨h1, h2, h3, h4⟩
    rcases bad with bad | bad | bad | bad
    · omega
    · exact (one_le_byte_iff c).1 (by assumption) bad
    · omega
    · omega
  · have good := (one_le_byte_iff c).2 span
    rw [reads, if_pos ⟨by omega, good, short, within⟩, if_neg (by omega)]
  · have good := (one_le_byte_iff c).2 span
    rw [reads, if_pos ⟨by omega, good, short, within⟩, if_pos odd]

/-- Settles O29, from the reply of READ COUNTS in each case. -/
theorem countsReadAndCleared : Obligations.CountsReadAndCleared := by
  refine ⟨?_, fun s ht => ?_⟩
  · intro a b c d s ht n
    have reads : exec (.readCounts (frameOf [a, b, c, d])) s =
        .next (keepForming (actReadCounts [a, b, c, d] (held 6 s))) :=
      exec_frameOf (h := { fits := exactly 4, act := actReadCounts }) rfl ht (by simp) rfl
    rw [keepForming_actReadCounts] at reads
    refine ⟨fun bad => ?_, fun low span short within => ⟨fun even => ?_, fun odd => ?_⟩⟩
    · rw [reads, if_neg]
      rintro ⟨h1, h2, h3, h4, h5⟩
      rcases bad with bad | bad | bad | bad | bad
      · omega
      · omega
      · exact (one_le_byte_iff c).1 (by assumption) bad
      · omega
      · omega
    · have good := (one_le_byte_iff c).2 span
      rw [reads, if_pos ⟨low, by omega, good, short, within⟩, if_neg (by omega)]
    · have good := (one_le_byte_iff c).2 span
      rw [reads, if_pos ⟨low, by omega, good, short, within⟩, if_pos odd]
  · exact exec_frameOf (p := []) (h := { fits := exactly 0, act := fun _ => actClearCounts }) rfl ht (by simp) rfl

/-! ### Attention -/

theorem exec_ackAttention (b : Byte) {s : State} (ht : taking s) : exec (.ackAttention (frameOf [b])) s =
    .next (if 64 ≤ b.toNat then taken 3 (refusedWith 1) s
      else taken 3 (okReply []) { s with ep := { s.ep with flags := s.ep.flags &&& ~~~BitVec.ofNat 6 b.toNat } }) := by
  have acts : exec (.ackAttention (frameOf [b])) s = .next (keepForming (withFlags [b] clearFlags (held 3 s))) :=
    exec_frameOf (h := { fits := exactly 1, act := actAck }) rfl ht (by simp) rfl
  rw [acts, withFlags, byteAt_cons_zero]
  by_cases beyond : 64 ≤ b.toNat
  · rw [if_pos beyond, if_pos beyond]; rfl
  · rw [if_neg beyond, if_neg beyond]; rfl

theorem exec_setAttentionMask (b : Byte) {s : State} (ht : taking s) : exec (.setAttentionMask (frameOf [b])) s =
    .next (if 64 ≤ b.toNat then taken 3 (refusedWith 1) s
      else taken 3 (okReply []) { s with ep := { s.ep with mask := BitVec.ofNat 6 b.toNat } }) := by
  have acts : exec (.setAttentionMask (frameOf [b])) s =
      .next (keepForming (withFlags [b] (fun m t => { t with ep := { t.ep with mask := m } }) (held 3 s))) :=
    exec_frameOf (h := { fits := exactly 1, act := actSetMask }) rfl ht (by simp) rfl
  rw [acts, withFlags, byteAt_cons_zero]
  by_cases beyond : 64 ≤ b.toNat
  · rw [if_pos beyond, if_pos beyond]; rfl
  · rw [if_neg beyond, if_neg beyond]; rfl

/-- A set of six flags is read back from its byte. -/
theorem flags_of_byte (f : AttnFlags) : ¬64 ≤ (f.zeroExtend 8).toNat ∧ BitVec.ofNat 6 (f.zeroExtend 8).toNat = f := by
  have low : (f.zeroExtend 8).toNat = f.toNat := by simp; omega
  exact ⟨by omega, by rw [low]; simp⟩

/-- ATTN is low while a flag is set and enabled. -/
theorem attnPinHigh_eq_false_iff (s : State) : attnPinHigh s = false ↔
    s.resetHeld = false ∧ ∃ i : Fin 6, s.ep.flags.getLsbD i.val = true ∧ s.ep.mask.getLsbD i.val = true := by
  have shown : s.ep.flags &&& s.ep.mask = 0 ↔
      ∀ i : Fin 6, ¬(s.ep.flags.getLsbD i.val = true ∧ s.ep.mask.getLsbD i.val = true) := by
    refine ⟨fun none i ⟨flag, enabled⟩ => ?_, fun none => BitVec.eq_of_getLsbD_eq fun i below => ?_⟩
    · have : (s.ep.flags &&& s.ep.mask).getLsbD i.val = false := by rw [none]; simp
      rw [BitVec.getLsbD_and, flag, enabled] at this
      cases this
    · simpa using none ⟨i, below⟩
  rw [attnPinHigh, attnAsserted]
  cases h : s.resetHeld
  · have none := not_congr shown
    push Not at none
    simpa using none
  · simp

/-- Settles O34, from the reply of each command and the level of ATTN. -/
theorem attentionServed : Obligations.AttentionServed := by
  refine ⟨fun b s ht beyond => ?_, fun f s ht => ?_, attnPinHigh_eq_false_iff⟩
  · rw [exec_ackAttention b ht, exec_setAttentionMask b ht, if_pos beyond, if_pos beyond]
    exact ⟨rfl, rfl⟩
  · obtain ⟨within, read⟩ := flags_of_byte f
    rw [exec_ackAttention _ ht, exec_setAttentionMask _ ht, if_neg within, if_neg within, read]
    exact ⟨rfl, rfl⟩

end Sys2Proof.Proofs
end

section
/-! PROOF. Station control from the host: SET SUBSCRIPTION, DISABLE STATION, RELEASE STATION and RESET TRUNK (R120, R167,
R169, R175, R176). -/

namespace Sys2Proof.Proofs
open Sys2Proof.Machine Sys2Proof.Safety Sys2Proof.Laws

/-! ### Leaving -/

theorem afterLeaving_eq (gone : Addr → Bool) (entries : List QueryEntry) :
    afterLeaving gone entries = entries.filterMap (leaving fun e => gone e.addr = true) := by
  unfold afterLeaving leaving leaveEntry; rfl

theorem leaveEntries_afterLeaving (a : Addr) (qt : QueryTable) :
    leaveEntries a qt = { entries := afterLeaving (fun b => b == a) qt.entries } := by
  rw [leaveEntries_eq, afterLeaving_eq]
  simp only [beq_iff_eq]

/-- A station in service goes to a state outside ENABLED and DORMANT with its entries (R120, R167, R169). -/
theorem depart_inService {a : Addr} {new : StationState} {s : State} (service : inService (stationAt s a) = true)
    (other : (stationAt s a).state ≠ new) : depart a new s =
      raiseFlag stationChange (updateStation a (fun st => { leftRecord st with state := new, changed := true })
        { s with qt := { entries := afterLeaving (fun b => b == a) s.qt.entries } }) := by
  have left : leave a s = updateStation a leftRecord
      { s with qt := { entries := afterLeaving (fun b => b == a) s.qt.entries } } := by
    rw [leave, if_pos service, leaveEntries_afterLeaving]
    rfl
  have state : (stationAt (leave a s) a).state = (stationAt s a).state := by rw [stationAt_leave, if_pos service]; rfl
  rw [depart, changeState_new _ (state ▸ other), left, updateStation_updateStation]

/-- A station out of service only changes its state. -/
theorem depart_outOfService {a : Addr} {new : StationState} {s : State} (out : inService (stationAt s a) = false) :
    depart a new s = changeState a new s := by
  rw [depart, leave, if_neg (by simp [out])]

/-! ### Addresses -/

/-- The two bytes of an address spell it. -/
theorem addrOfBytes_bytes (a : Addr) :
    addrOfBytes (byteOf (a.val / 16)).toNat (byteOf (a.val % 16)).toNat = some a := by
  rw [addrOfBytes_eq_some_iff]
  simp only [toNat_byteOf]
  omega

theorem addrOfBytes_eq_none {trunk station : Nat} (h : 5 < trunk ∨ 15 < station) : addrOfBytes trunk station = none := by
  rw [addrOfBytes, dif_neg (by omega)]

section
variable {c : Instr} {act : Addr → State → Taken} {s : State}

/-- A command that names an address out of range is refused. -/
theorem atStation_out {k n : Byte} {rest : List Byte} (h : 5 < k.toNat ∨ 15 < n.toNat) (t : State) :
    atStation (k :: n :: rest) act t = refuse .badField t := by
  simp only [atStation, byteAt_cons_zero, byteAt_cons_succ, addrOfBytes_eq_none h]

/-- A command that names a station acts on it. -/
theorem atStation_bytes (a : Addr) (rest : List Byte) (t : State) :
    atStation (byteOf (a.val / 16) :: byteOf (a.val % 16) :: rest) act t = act a t := by
  simp only [atStation, byteAt_cons_zero, byteAt_cons_succ, addrOfBytes_bytes]

end

/-! ### The operations while a command is being taken -/

theorem changeState_held (a : Addr) (new : StationState) : HeldFree (changeState a new) := fun n s => by
  unfold changeState
  rw [stationAt_held]
  split <;> rfl

theorem leave_held (a : Addr) : HeldFree (leave a) := fun n s => by
  unfold leave
  rw [stationAt_held]
  split <;> rfl

theorem depart_held (a : Addr) (new : StationState) : HeldFree (depart a new) := fun n s => by
  rw [depart, leave_held, changeState_held, depart]

theorem updateStation_held (a : Addr) (f : Station → Station) : HeldFree (updateStation a f) := fun _ _ => rfl

theorem voidExchange_held (a : Addr) : HeldFree (voidExchange a) := fun _ _ => rfl

theorem disable_held (a : Addr) : HeldFree (disable a) := fun n s => by
  unfold disable
  rw [stationAt_held]
  dsimp only
  split
  · rw [depart_held, voidExchange_held]
  · rw [updateStation_held, depart_held, voidExchange_held]

theorem resetTrunk_held (t : TrunkNo) : HeldFree (resetTrunk t) := fun n s => by
  have same : anyStation (held n s) t becomesAbsent = anyStation s t becomesAbsent := rfl
  unfold resetTrunk
  rw [same]
  split <;> rfl

/-! ### DISABLE STATION -/

theorem void_voidExchange {a : Addr} {s : State} {x : Exchange}
    (awaited : (trunkAt (voidExchange a s) (trunkOf a)).exchange = some x) (named : x.station = a) : x.void = true := by
  rw [voidExchange, trunkAt_updateTrunk_same, Option.map_eq_some_iff] at awaited
  obtain ⟨y, -, rfl⟩ := awaited
  by_cases same : y.station = a
  · rw [if_pos same]
  · rw [if_neg same] at named
    exact absurd named same

@[simp] theorem stationAt_voidExchange (a b : Addr) (s : State) : stationAt (voidExchange a s) b = stationAt s b := rfl

/-- The state in which a station is disabled: in service it leaves, and else its counts are cleared (R120, R175). -/
theorem disable_eq {a : Addr} {s : State} (enabled : (stationAt s a).state ≠ .disabled) : disable a s =
    voidExchange a (raiseFlag stationChange (updateStation a (fun st => if inService st then
        { leftRecord st with state := .disabled, changed := true }
      else { st with state := .disabled, changed := true, misses := 0, attempts := 0, countdown := 0 })
      { s with qt := if inService (stationAt s a) then { entries := afterLeaving (fun b => b == a) s.qt.entries } else s.qt })) := by
  unfold disable
  cases service : inService (stationAt s a)
  · have out : inService (stationAt (updateStation a
        (fun st => { st with misses := 0, attempts := 0, countdown := 0 }) s) a) = false := by
      rw [stationAt_updateStation_same]; exact service
    have other : (stationAt (updateStation a
        (fun st => { st with misses := 0, attempts := 0, countdown := 0 }) s) a).state ≠ .disabled := by
      rw [stationAt_updateStation_same]; exact enabled
    simp only [Bool.false_eq_true, if_false]
    rw [depart_outOfService out, changeState_new _ other, updateStation_updateStation]
    simp only [updateStation, service, Bool.false_eq_true, if_false]
  · have service' : inService (stationAt { s with qt := { entries := afterLeaving (fun b => b == a) s.qt.entries } } a) =
        true := service
    simp only [if_true]
    rw [depart_inService service enabled]
    simp only [updateStation, service', if_true]

/-- Settles O30, by the address bytes and by the state of the station. -/
theorem stationsControlled : Obligations.StationsControlled := by
  have sets : ∀ k n hi lo s, taking s → exec (.setSubscription (frameOf [k, n, hi, lo])) s =
      .next (keepForming (actSetSubscription [k, n, hi, lo] (held 6 s))) := fun k n hi lo s ht =>
    exec_frameOf (h := { fits := exactly 4, act := actSetSubscription }) rfl ht (by simp) rfl
  have disables : ∀ k n s, taking s → exec (.disableStation (frameOf [k, n])) s =
      .next (keepForming (actDisable [k, n] (held 4 s))) := fun k n s ht =>
    exec_frameOf (h := { fits := exactly 2, act := actDisable }) rfl ht (by simp) rfl
  have releases : ∀ k n s, taking s → exec (.releaseStation (frameOf [k, n])) s =
      .next (keepForming (actRelease [k, n] (held 4 s))) := fun k n s ht =>
    exec_frameOf (h := { fits := exactly 2, act := actRelease }) rfl ht (by simp) rfl
  refine ⟨fun k n hi lo s ht out => ?_, fun a s ht => ?_⟩
  · rw [sets _ _ _ _ _ ht, disables _ _ _ ht, releases _ _ _ ht, actSetSubscription, actDisable, actRelease,
      atStation_out out, atStation_out out, atStation_out out]
    exact ⟨rfl, rfl, rfl⟩
  · refine ⟨fun hi lo => ?_, fun disabled => ?_, fun enabled => ⟨disable a s, ?_⟩, fun enabled => ?_, fun disabled => ?_⟩
    · have groups : wordAt [byteOf (a.val / 16), byteOf (a.val % 16), hi, lo] 2 = 256 * hi.toNat + lo.toNat := rfl
      rw [sets _ _ _ _ _ ht, actSetSubscription, atStation_bytes, groups]
      exact ⟨fun many => by rw [if_pos many]; rfl, fun few => by rw [if_neg (by omega)]; rfl⟩
    · rw [disables _ _ _ ht, actDisable, atStation_bytes, stationAt_held, if_pos disabled]
      rfl
    · refine ⟨?_, ?_, ?_, ?_, ?_, ?_, ?_, ?_, ?_, ?_, ?_, ?_⟩
      · rw [disables _ _ _ ht, actDisable, atStation_bytes, stationAt_held, if_neg enabled,
          keepForming_done (disable_held a)]
      all_goals rw [disable_eq enabled]
      · rw [stationAt_voidExchange, stationAt_raiseFlag, stationAt_updateStation_same]
        rfl
      · show (if inService (stationAt s a) then _ else s.qt).entries = _
        split <;> rfl
      · exact fun x awaited named => void_voidExchange awaited named
      · rfl
      · intro b other
        rw [stationAt_voidExchange, stationAt_raiseFlag, stationAt_updateStation_other _ _ other]
        rfl
      · intro u other
        rw [voidExchange, trunkAt_updateTrunk_other _ _ other]
        rfl
      · exact ⟨rfl, rfl, rfl, rfl, rfl, rfl, rfl, rfl⟩
      all_goals rfl
    · rw [releases _ _ _ ht, actRelease, atStation_bytes, stationAt_held, if_neg enabled]
      rfl
    · rw [releases _ _ _ ht, actRelease, atStation_bytes, stationAt_held, if_pos disabled,
        keepForming_done (changeState_held a .absent), changeState_new _ (by simp [disabled])]
      rfl

/-! ### RESET TRUNK -/

theorem anyStation_iff (s : State) (k : TrunkNo) (test : Station → Bool) :
    anyStation s k test = true ↔ ∃ a, trunkOf a = k ∧ test (stationAt s a) = true := by
  simp only [anyStation, trunkStation, List.any_eq_true, List.mem_finRange, true_and]
  constructor
  · rintro ⟨n, h⟩
    exact ⟨addrOf k n, trunkOf_addrOf k n, h⟩
  · rintro ⟨a, rfl, h⟩
    exact ⟨stationOf a, by rwa [addrOf_trunkOf]⟩

theorem becomesAbsent_iff (st : Station) : becomesAbsent st = true ↔ st.state ≠ .disabled ∧ st.state ≠ .absent := by
  simp [becomesAbsent]

/-- The attention flags after a trunk reset (R167). -/
theorem resetTrunk_flags (k : TrunkNo) (s : State) : (resetTrunk k s).ep =
    { s.ep with flags := if ∃ a, trunkOf a = k ∧ (stationAt s a).state ≠ .disabled ∧ (stationAt s a).state ≠ .absent then
      s.ep.flags ||| 2 else s.ep.flags } := by
  have any := anyStation_iff s k becomesAbsent
  simp only [becomesAbsent_iff] at any
  unfold resetTrunk
  by_cases h : anyStation s k becomesAbsent = true
  · rw [if_pos (any.1 h)]; simp only [h, if_true]; rfl
  · rw [if_neg (mt any.2 h)]; simp only [h]; rfl

theorem flag_set_iff (f : AttnFlags) : f = f ||| 2 ↔ f &&& 2 = 2 := by
  revert f; decide

/-- The part with the stations of a trunk taken to ABSENT and their entries left (R120, R176). -/
def trunkLeft (k : TrunkNo) (s : State) : State :=
  mapStations (fun a st => if trunkOf a = k then trunkResetRecord st else st) { s with qt := leaveTrunk s k }

/-- The frame that a reset trunk begins (R176). -/
def trunkBegun (s : State) (t : Trunk) : Trunk :=
  beginFrame s 0 { t with pollPtr := 15, noticePtr := 15, resetPtr := 15, probePtr := 15 }

/-- What a trunk reset leaves besides the attention flags. -/
theorem resetTrunk_eq (k : TrunkNo) (s : State) : resetTrunk k s =
    { s with qt := leaveTrunk s k, kl := (updateTrunk k (trunkBegun s) (trunkLeft k s)).kl, ep := (resetTrunk k s).ep } := by
  unfold resetTrunk
  split <;> rfl

theorem trunkAt_resetTrunk (k u : TrunkNo) (s : State) :
    trunkAt (resetTrunk k s) u = trunkAt (updateTrunk k (trunkBegun s) (trunkLeft k s)) u := by
  rw [resetTrunk_eq]; rfl

theorem stationAt_resetTrunk (k : TrunkNo) (s : State) (a : Addr) : stationAt (resetTrunk k s) a =
    if trunkOf a = k then trunkResetRecord (stationAt s a) else stationAt s a := by
  rw [resetTrunk_eq]
  exact stationAt_mapStations { s with qt := leaveTrunk s k }
    (fun a st => if trunkOf a = k then trunkResetRecord st else st) a

theorem entries_resetTrunk (k : TrunkNo) (s : State) : (resetTrunk k s).qt.entries =
    afterLeaving (fun a => decide (trunkOf a = k) && inService (stationAt s a)) s.qt.entries := by
  rw [resetTrunk_eq, afterLeaving_eq]
  show (leaveTrunk s k).entries = _
  rw [leaveTrunk_eq]
  simp

theorem mem_afterLeaving_of_stays {gone : Addr → Bool} {entries : List QueryEntry} {e : QueryEntry} (mem : e ∈ entries)
    (stays : gone e.addr = false) : e ∈ afterLeaving gone entries :=
  List.mem_filterMap.2 ⟨e, mem, by simp [stays]⟩

theorem halting_of_mem_afterLeaving {gone : Addr → Bool} {entries : List QueryEntry} {e : QueryEntry}
    (mem : e ∈ afterLeaving gone entries) (goes : gone e.addr = true) : e.state = .halting .stationLeft := by
  rw [afterLeaving_eq] at mem
  obtain ⟨x, -, hx⟩ := List.mem_filterMap.1 mem
  obtain ⟨addr, -, -, -⟩ := sameKeys_leaving _ x e hx
  rw [leaving, if_pos (addr ▸ goes), leaveEntry] at hx
  split at hx
  all_goals cases hx
  all_goals rfl

/-- Settles O31, from the stations, the trunk, the flags and the entries after a trunk reset. -/
theorem trunkReset : Obligations.TrunkReset := by
  have acts : ∀ b s, taking s → exec (.resetTrunk (frameOf [b])) s = .next (keepForming (actResetTrunk [b] (held 3 s))) :=
    fun b s ht => exec_frameOf (h := { fits := exactly 1, act := actResetTrunk }) rfl ht (by simp) rfl
  refine ⟨fun b s ht out => ?_, fun k s ht => ⟨resetTrunk k s, ?_⟩⟩
  · rw [acts _ _ ht, actResetTrunk, dif_neg (by rw [byteAt_cons_zero]; omega)]
    rfl
  · have trunk : trunkAt (resetTrunk k s) k = trunkBegun s (trunkAt s k) := by
      rw [trunkAt_resetTrunk, trunkAt_updateTrunk_same]; rfl
    have entries := entries_resetTrunk k s
    refine ⟨?_, fun a on state => ?_, fun a on state => ?_, fun a off => ?_, ?_, ?_, ?_, ?_, ?_, ?_, ?_, ?_, ?_, entries,
      fun e mem stays => ?_, fun e mem on service => ?_, fun u other => ?_, ?_, ?_, ?_, ?_, ?_⟩
    · have small : byteAt [byteOf k.val] 0 = k.val := by simp; omega
      have within : byteAt [byteOf k.val] 0 < 6 := by omega
      have same : (⟨byteAt [byteOf k.val] 0, within⟩ : TrunkNo) = k := Fin.ext small
      rw [acts _ _ ht, actResetTrunk, dif_pos within, same, keepForming_done (resetTrunk_held k)]
    · rw [stationAt_resetTrunk, if_pos on]; simp [trunkResetRecord, absentRecord, state]
    · rw [stationAt_resetTrunk, if_pos on]; simp [trunkResetRecord, state]
    · rw [stationAt_resetTrunk, if_neg off]
    · rw [trunk]; rfl
    · rw [trunk]; rfl
    · rw [trunk]; rfl
    · rw [trunk]; rfl
    · rw [trunk]; rfl
    · rw [trunk]; rfl
    · rw [trunk]; exact ⟨_, rfl, rfl⟩
    · rw [resetTrunk_flags]; dsimp only; split
      · exact .inl rfl
      · exact .inr rfl
    · rw [resetTrunk_flags]; dsimp only; split
      · exact ⟨fun _ => .inr ‹_›, fun _ => rfl⟩
      · rw [flag_set_iff]
        exact ⟨.inl, fun h => h.resolve_right ‹_›⟩
    · rw [entries]
      exact mem_afterLeaving_of_stays mem (by simpa [Bool.and_eq_false_iff, imp_iff_not_or] using stays)
    · rw [entries] at mem
      exact halting_of_mem_afterLeaving mem (by simp [on, service])
    · rw [trunkAt_resetTrunk, trunkAt_updateTrunk_other _ _ other]; rfl
    · rw [resetTrunk_eq]
      exact ⟨rfl, rfl, rfl, rfl, rfl, rfl, rfl, rfl⟩
    all_goals rw [resetTrunk_eq]

end Sys2Proof.Proofs
end

section
/-! PROOF. Evacuation entry and clear, the EMERGENCY line and the service commands (R121, R122, R172, R179, R181, R186,
R193 to R195). -/

namespace Sys2Proof.Proofs
open Sys2Proof.Machine Sys2Proof.Safety Sys2Proof.Laws

theorem sameRecords_trans {s t u : State} (first : sameRecords s t) (second : sameRecords t u) : sameRecords s u := by
  obtain ⟨h1, h2, h3, h4, h5, h6, h7, h8⟩ := first
  obtain ⟨g1, g2, g3, g4, g5, g6, g7, g8⟩ := second
  exact ⟨g1.trans h1, g2.trans h2, g3.trans h3, g4.trans h4, g5.trans h5, g6.trans h6, g7.trans h7, g8.trans h8⟩

theorem sameRecords_grant (s : State) : sameRecords s (grant s) := by simp [sameRecords]

theorem inService_iff (st : Station) : inService st = true ↔ st.state = .enabled ∨ st.state = .dormant := by
  simp [inService]

/-- Raising groups at a station is what R172 states. -/
theorem raiseAt_eq (groups : Groups) (st : Station) : raiseAt groups st = raised groups st := by
  simp [raiseAt, raised, inService]

theorem raiseGroups_eq (groups : Groups) (s : State) :
    raiseGroups groups s = mapStations (fun _ => raised groups) s := by
  simp only [raiseGroups, raiseAt_eq]

/-! ### An evacuation entry at the stations (R121) -/

theorem toldEvacuating_queued {e : QueryEntry} (queued : e.state = .queued) (st : Station) :
    toldEvacuating st e = fillSlot e.slot e.tag (.refused .evacuating) st := by
  simp [toldEvacuating, queued, fillSlot]

theorem readyWaits_iff (st : Station) (slot : Nat) :
    readyWaits st slot = true ↔ ∃ x ∈ st.queue, x.place = slot ∧ x.content.isSome = true ∧ x.inFlight = false := by
  simp [readyWaits, and_assoc]

theorem toldEvacuating_ready {e : QueryEntry} {hold : Nat} (ready : e.state = .ready hold) (st : Station) :
    toldEvacuating st e = refuseReady e st := by
  simp only [toldEvacuating, ready, refuseReady, ← readyWaits_iff, slotsFull, slotCapacity, decide_eq_true_eq]
  rfl

/-- One entry told of an evacuation entry: its own station is told. -/
theorem stationAt_evacuateEntry (e : QueryEntry) (s : State) (a : Addr) : stationAt (evacuateEntry e s) a =
    if e.addr = a then toldEvacuating (stationAt s a) e else stationAt s a := by
  have told : ∀ f : Station → Station, stationAt (dropEntry e.addr e.tag (updateStation e.addr f s)) a =
      if e.addr = a then f (stationAt s a) else stationAt s a := fun f => by
    show stationAt (updateStation e.addr f s) a = _
    simp only [stationAt_updateStation, @eq_comm _ a]
  unfold evacuateEntry
  split
  · rename_i state
    simp only [told, toldEvacuating_queued state]
  · rename_i state
    simp only [toldEvacuating, state, ite_self]
    rfl
  · rename_i state
    simp only [told, toldEvacuating_ready state]
  · rename_i state
    simp only [toldEvacuating, state, ite_self]

/-- Every station after the entries of a list have been told. -/
theorem stationAt_evacuateList (l : List QueryEntry) (s : State) (a : Addr) :
    stationAt (l.foldl (fun t e => evacuateEntry e t) s) a =
      (l.filter fun e => e.addr == a).foldl toldEvacuating (stationAt s a) := by
  induction l generalizing s with
  | nil => rfl
  | cons e l ih =>
    rw [List.foldl_cons, ih, stationAt_evacuateEntry, List.filter_cons]
    by_cases own : e.addr = a <;> simp [own]

theorem stationAt_evacuateEntries (s : State) (a : Addr) : stationAt (evacuateEntries s) a =
    (s.qt.entries.filter fun e => isRoute e && e.addr == a).foldl toldEvacuating (stationAt s a) := by
  rw [evacuateEntries, stationAt_evacuateList, List.filter_filter]
  simp only [Bool.and_comm]

theorem pendingMask_toldEvacuating (st : Station) (e : QueryEntry) :
    (toldEvacuating st e).pendingMask = st.pendingMask := by
  unfold toldEvacuating
  dsimp only
  repeat' split
  all_goals rfl

theorem pendingMask_toldAll (l : List QueryEntry) (st : Station) :
    (l.foldl toldEvacuating st).pendingMask = st.pendingMask := by
  induction l generalizing st with
  | nil => rfl
  | cons e l ih => rw [List.foldl_cons, ih, pendingMask_toldEvacuating]

theorem pendingMask_raised (groups : Groups) (st : Station) : (raised groups st).pendingMask =
    if inService st then st.pendingMask ||| (groups &&& st.subscription) else st.pendingMask := by
  unfold raised
  by_cases service : inService st = true
  · rw [if_pos service]
    by_cases none : groups &&& st.subscription = 0
    · rw [if_neg fun h => h.2 none, none]; simp
    · rw [if_pos ⟨(inService_iff st).1 service, none⟩]
  · rw [if_neg service, if_neg fun h => service ((inService_iff st).2 h.1)]

/-! ### An evacuation entry in the table (R121) -/

theorem halting_of_afterEvacuation {entries : List QueryEntry} {e : QueryEntry} (mem : e ∈ afterEvacuation entries)
    (route : isRoute e = true) : ∃ cause, e.state = .halting cause := by
  rw [afterEvacuation_eq] at mem
  obtain ⟨x, -, hx⟩ := List.mem_filterMap.1 mem
  by_cases hr : isRoute x = true
  · rw [if_pos hr, evacuated] at hx
    split at hx
    · cases hx
    · cases hx
    · cases hx; exact ⟨_, rfl⟩
    · cases hx; exact ⟨_, ‹_›⟩
  · rw [if_neg hr] at hx
    cases hx
    exact absurd route hr

theorem lookups_afterEvacuation (entries : List QueryEntry) :
    (afterEvacuation entries).filter (fun e => !isRoute e) = entries.filter fun e => !isRoute e := by
  rw [afterEvacuation_eq, List.filter_filterMap, filter_eq_filterMap]
  refine List.filterMap_congr fun x _ => ?_
  by_cases route : isRoute x = true
  · rw [if_pos route, evacuated]
    have changed : ∀ state, isRoute { x with state := state } = isRoute x := fun _ => rfl
    split <;> simp [changed, route]
  · simp [route]

theorem working_afterEvacuation {entries : List QueryEntry} {e : QueryEntry} (mem : e ∈ entries)
    (route : isRoute e = true) (working : e.state = .working) :
    { e with state := .halting .evacuation } ∈ afterEvacuation entries := by
  rw [afterEvacuation_eq]
  exact List.mem_filterMap.2 ⟨e, mem, by simp [route, evacuated, working]⟩

/-! ### The operations while a command is being taken -/

theorem foldl_held {α : Type} {f : α → State → State} (h : ∀ x, HeldFree (f x)) (l : List α) :
    HeldFree fun s => l.foldl (fun t x => f x t) s := fun n s => by
  induction l generalizing s with
  | nil => rfl
  | cons x l ih => simp only [List.foldl_cons]; rw [h]; exact ih _

theorem evacuateEntry_held (e : QueryEntry) : HeldFree (evacuateEntry e) := fun n s => by
  unfold evacuateEntry
  split <;> rfl

theorem evacuateEntries_held : HeldFree evacuateEntries := fun n s =>
  foldl_held evacuateEntry_held (s.qt.entries.filter isRoute) n s

theorem beginBuildIfDue_held : HeldFree beginBuildIfDue := fun n s => by
  have same : buildDue (held n s) = buildDue s := rfl
  unfold beginBuildIfDue whenever
  rw [same]
  split <;> rfl

theorem raiseGroups_held (groups : Groups) : HeldFree (raiseGroups groups) := fun _ _ => rfl

/-- The latch set, with EVAC_CHANGE (R181). -/
def latched (s : State) : State := raiseFlag evacChange { s with eu := { s.eu with latch := true } }

theorem latched_held : HeldFree latched := fun _ _ => rfl

theorem evacuationEntry_latched {s : State} (latch : s.eu.latch = true) : evacuationEntry s = s := if_pos latch

theorem evacuationEntry_loading {s : State} (clear : s.eu.latch = false) (loading : s.service = .loading) :
    evacuationEntry s = latched s := by
  rw [evacuationEntry, if_neg (by simp [clear])]
  dsimp only
  split
  · rfl
  · simp_all
  · simp_all

theorem evacuationEntry_starting {s : State} (clear : s.eu.latch = false) (starting : s.service = .starting) :
    evacuationEntry s = raiseGroups (groupBit 11) (latched s) := by
  rw [evacuationEntry, if_neg (by simp [clear])]
  dsimp only
  split
  · simp_all
  · rfl
  · simp_all

theorem evacuationEntry_service {s : State} (clear : s.eu.latch = false) (service : s.service = .service) :
    evacuationEntry s = beginBuildIfDue (evacuateEntries (raiseGroups (groupBit 11) (latched s))) := by
  rw [evacuationEntry, if_neg (by simp [clear])]
  dsimp only
  split
  · simp_all
  · simp_all
  · rfl

theorem evacuationEntry_held : HeldFree evacuationEntry := fun n s => by
  have latch : (held n s).eu.latch = s.eu.latch := rfl
  have service : (held n s).service = s.service := rfl
  cases clear : s.eu.latch
  · cases state : s.service
    · rw [evacuationEntry_loading clear state, evacuationEntry_loading (latch.trans clear) (service.trans state),
        latched_held]
    · rw [evacuationEntry_starting clear state, evacuationEntry_starting (latch.trans clear) (service.trans state),
        latched_held, raiseGroups_held]
    · rw [evacuationEntry_service clear state, evacuationEntry_service (latch.trans clear) (service.trans state),
        latched_held, raiseGroups_held, evacuateEntries_held, beginBuildIfDue_held]
  · rw [evacuationEntry_latched clear, evacuationEntry_latched (latch.trans clear)]

theorem exec_evacStart {s : State} (ht : taking s) :
    exec (.evacStart (frameOf [])) s = .next (taken 2 (okReply []) (evacuationEntry s)) := by
  have acts : exec (.evacStart (frameOf [])) s = .next (keepForming (done (evacuationEntry (held 2 s)))) :=
    exec_frameOf (p := []) (h := { fits := exactly 0, act := fun _ => actEvacStart }) rfl ht (by simp) rfl
  rw [acts, keepForming_done evacuationEntry_held]

/-! ### EVAC START -/

/-- A build that begins when it may changes the Evacuation Unit alone. -/
theorem beginBuildIfDue_eq (s : State) : beginBuildIfDue s = { s with eu := (beginBuildIfDue s).eu } := by
  unfold beginBuildIfDue whenever
  split <;> rfl

theorem beginBuildIfDue_latch (s : State) : (beginBuildIfDue s).eu.latch = s.eu.latch := by
  unfold beginBuildIfDue whenever
  split <;> rfl

theorem beginBuildIfDue_unit (s : State) :
    (beginBuildIfDue s).eu.unit = if buildDue s = true then .building else s.eu.unit := by
  unfold beginBuildIfDue whenever
  split <;> rfl

/-- Settles O32: by service state, and in SERVICE by what becomes of the entries, the stations and the unit. -/
theorem evacuationEntered : Obligations.EvacuationEntered := by
  refine ⟨fun s ht latch => ?_, fun s ht clear loading => ?_, fun s ht clear starting => ?_,
    fun s ht table clear off service => ⟨evacuationEntry s, exec_evacStart ht, ?_⟩⟩
  · rw [exec_evacStart ht, evacuationEntry_latched latch]
  · rw [exec_evacStart ht, evacuationEntry_loading clear loading]
    rfl
  · rw [exec_evacStart ht, evacuationEntry_starting clear starting, raiseGroups_eq]
    rfl
  · rw [evacuationEntry_service clear service, raiseGroups_eq]
    generalize hv : mapStations (fun _ => raised (groupBit 11)) (latched s) = v
    have frame : v = { latched s with kl := v.kl } := by rw [← hv]; rfl
    have station : ∀ a, stationAt v a = raised (groupBit 11) (stationAt s a) := fun a => by
      rw [← hv, stationAt_mapStations]; rfl
    have trunks : v.kl.trunks = s.kl.trunks := by rw [← hv]; rfl
    have told := evacuateEntries_eq v
    have qt : v.qt = s.qt := by rw [frame]; rfl
    have entries : (evacuateEntries v).qt.entries = afterEvacuation s.qt.entries := by
      rw [evacuateEntries_entries (qt ▸ table.distinct), qt]
    have stations : ∀ a, stationAt (evacuateEntries v) a =
        (s.qt.entries.filter fun e => isRoute e && e.addr == a).foldl toldEvacuating
          (raised (groupBit 11) (stationAt s a)) := fun a => by
      rw [stationAt_evacuateEntries, qt, station]
    have same : evacuateEntries v = { s with
        eu := { s.eu with latch := true }, ep := { s.ep with flags := s.ep.flags ||| 16 }
        qt := (evacuateEntries v).qt, kl := (evacuateEntries v).kl } := by
      rw [told, frame]; rfl
    have due : buildDue (evacuateEntries v) = true ↔ s.ec.turn = .steady ∧ s.re.work = none := by
      rw [buildDue_iff, same]
      simp [service, off]
    have built := beginBuildIfDue_eq (evacuateEntries v)
    have kl : (beginBuildIfDue (evacuateEntries v)).kl = (evacuateEntries v).kl := by rw [built]
    have after : ∀ a, stationAt (beginBuildIfDue (evacuateEntries v)) a = stationAt (evacuateEntries v) a := fun a => by
      rw [stationAt, kl]; rfl
    have table' : (beginBuildIfDue (evacuateEntries v)).qt.entries = afterEvacuation s.qt.entries := by
      rw [built, ← entries]
    have kept : evacuateEntries v = { s with
        eu := (evacuateEntries v).eu, ep := { s.ep with flags := s.ep.flags ||| 16 }
        qt := (evacuateEntries v).qt, kl := (evacuateEntries v).kl } := by
      conv_lhs => rw [same]
      rw [same]
    have trunks' : (evacuateEntries v).kl.trunks = s.kl.trunks := by simp [trunks]
    have flags : (beginBuildIfDue (evacuateEntries v)).ep = { s.ep with flags := s.ep.flags ||| 16 } := by
      rw [built, kept]
    refine ⟨?_, by rw [flags], by rw [flags], table', fun a => ?_, fun e mem => ?_, ?_, fun e mem => ?_, ?_,
      fun a => ?_, ⟨?_, ?_, ?_, ?_, ?_, ?_, ?_, ?_⟩, ?_, ?_, ?_, ?_⟩
    · rw [beginBuildIfDue_latch, same]
    · rw [after, stations]
    · rw [table'] at mem
      exact halting_of_afterEvacuation mem
    · rw [table', lookups_afterEvacuation]
    · rw [table']
      exact working_afterEvacuation mem
    · rw [beginBuildIfDue_unit]
      simp only [due]
      rw [same, off]
    · rw [after, stations, pendingMask_toldAll, pendingMask_raised]
    all_goals rw [built]
    all_goals first | rw [trunks'] | rw [kept]

/-! ### EVAC CLEAR -/

theorem clearLatch_held : HeldFree clearLatch := fun n s => by
  have service : (held n s).service = s.service := rfl
  unfold clearLatch
  rw [service]
  dsimp only
  split <;> rfl

theorem grantRoute_held : HeldFree grantRoute := fun n s => by
  have may : routeMayGrant (held n s) = routeMayGrant s := rfl
  have oldest : oldestQueued isRoute (held n s).qt = oldestQueued isRoute s.qt := rfl
  unfold grantRoute
  rw [may, oldest]
  split
  · split
    · rfl
    · split <;> rfl
  · rfl

theorem grantFind_held : HeldFree grantFind := fun n s => by
  have fe : (held n s).fe = s.fe := rfl
  have ec : (held n s).ec = s.ec := rfl
  have qt : (held n s).qt = s.qt := rfl
  unfold grantFind
  rw [fe, ec, qt]
  split
  · split
    · rfl
    · split <;> rfl
  · rfl

theorem grant_held : HeldFree grant := fun n s => by rw [grant, grantRoute_held, grantFind_held, grant]

theorem afterBuild_held : HeldFree afterBuild := fun n s => by
  have ec : (held n s).ec = s.ec := rfl
  unfold afterBuild
  rw [ec]
  split
  · rfl
  · exact grant_held n s

theorem evacuationClear_held : HeldFree evacuationClear := fun n s => by
  have eu : (held n s).eu = s.eu := rfl
  unfold evacuationClear
  rw [eu]
  split
  · rfl
  · split
    · rw [clearLatch_held, afterBuild_held]
    · rw [clearLatch_held, grant_held]

/-- What the clearing of the latch changes, apart from what follows (R186). -/
theorem clearLatch_eq (s : State) : clearLatch s =
    { s with eu := { s.eu with latch := false, unit := .off }, ep := { s.ep with flags := s.ep.flags ||| 16 }
             qt := { entries := s.qt.entries.filter fun e => !evacuationAnswer e }, kl := (clearLatch s).kl } := by
  unfold clearLatch
  cases s.service <;> rfl

theorem clearLatch_kl_loading {s : State} (loading : s.service = .loading) : (clearLatch s).kl = s.kl := by
  unfold clearLatch
  rw [loading]
  rfl

theorem stationAt_clearLatch {s : State} (service : s.service ≠ .loading) (a : Addr) :
    stationAt (clearLatch s) a = raised (groupBit 11) (stationAt s a) := by
  unfold clearLatch
  cases state : s.service
  · exact absurd state service
  all_goals exact (stationAt_mapStations _ _ a).trans (raiseAt_eq _ _)

theorem clearLatch_trunks (s : State) : (clearLatch s).kl.trunks = s.kl.trunks := by
  unfold clearLatch
  cases s.service <;> rfl

theorem evacuationClear_waited {s : State} (latch : s.eu.latch = true) (building : s.eu.unit = .building)
    (wanted : s.ec.wanted = true) :
    evacuationClear s = { clearLatch s with ec := startWanted s.ec } := by
  have ec : (clearLatch s).ec = s.ec := by rw [clearLatch_eq]
  simp only [evacuationClear, latch, Bool.not_true, Bool.false_eq_true, if_false, building, if_true, afterBuild, ec, wanted]

theorem evacuationClear_grants {s : State} (latch : s.eu.latch = true)
    (idle : s.eu.unit ≠ .building ∨ s.ec.wanted = false) : evacuationClear s = grant (clearLatch s) := by
  unfold evacuationClear
  by_cases building : s.eu.unit = .building
  · have unwanted := idle.resolve_left (not_not.2 building)
    simp [latch, building, afterBuild, unwanted]
  · simp [latch, building]

theorem oldestQueued_filter {kinds p : QueryEntry → Bool} {qt : QueryTable} (nobody : oldestQueued kinds qt = none) :
    oldestQueued kinds { entries := qt.entries.filter p } = none := by
  simp only [oldestQueued, List.find?_eq_none] at nobody ⊢
  exact fun e mem => nobody e (List.mem_filter.1 mem).1

theorem queue_state_raised (groups : Groups) (st : Station) :
    (raised groups st).queue = st.queue ∧ (raised groups st).state = st.state := by
  unfold raised
  split <;> exact ⟨rfl, rfl⟩

/-- The stations keep their queues and states as the latch clears. -/
theorem queue_state_clearLatch (s : State) (a : Addr) : (stationAt (clearLatch s) a).queue = (stationAt s a).queue
    ∧ (stationAt (clearLatch s) a).state = (stationAt s a).state := by
  by_cases loading : s.service = .loading
  · rw [stationAt, clearLatch_kl_loading loading]
    exact ⟨rfl, rfl⟩
  · rw [stationAt_clearLatch loading]
    exact queue_state_raised _ _

/-- Settles O33, by the line, by the latch, and by whether a turn waits for the build. -/
theorem evacuationCleared : Obligations.EvacuationCleared := by
  have acts : ∀ s, taking s → exec (.evacClear (frameOf [])) s = .next (keepForming (actEvacClear (held 2 s))) :=
    fun s ht => exec_frameOf (p := []) (h := { fits := exactly 0, act := fun _ => actEvacClear }) rfl ht (by simp) rfl
  have line : ∀ s, (held 2 s).eu.asserted = s.eu.asserted := fun s => rfl
  have clears : ∀ s, taking s → s.eu.asserted = false →
      exec (.evacClear (frameOf [])) s = .next (taken 2 (okReply []) (evacuationClear s)) := fun s ht released => by
    rw [acts s ht, actEvacClear, line, released, if_neg (by simp), keepForming_done evacuationClear_held]
  refine ⟨fun s ht asserted => ?_, fun s ht released clear => ?_, fun s ht released latch =>
    ⟨evacuationClear s, clears s ht released, ?_⟩⟩
  · rw [acts s ht, actEvacClear, line, asserted]
    rfl
  · rw [clears s ht released, evacuationClear, if_pos (by simp [clear])]
  · have left := clearLatch_eq s
    have kept : ∀ e ∈ (clearLatch s).qt.entries, evacuationAnswer e = false := fun e mem => by
      rw [left] at mem
      simpa using (List.mem_filter.1 mem).2
    have qt : (clearLatch s).qt.entries = s.qt.entries.filter fun e => !evacuationAnswer e := by rw [left]
    have stations := queue_state_clearLatch s
    have loading : s.service = .loading → (clearLatch s).kl = s.kl := clearLatch_kl_loading
    have raises : s.service ≠ .loading → ∀ a, stationAt (clearLatch s) a = raised (groupBit 11) (stationAt s a) :=
      fun service => stationAt_clearLatch service
    have trunks := clearLatch_trunks s
    by_cases waits : s.eu.unit = .building ∧ s.ec.wanted = true
    · rw [evacuationClear_waited latch waits.1 waits.2]
      have no_grant : ¬(s.eu.unit ≠ .building ∨ s.ec.wanted = false) := by
        rintro (h | h)
        · exact h waits.1
        · simp [waits.2] at h
      refine ⟨?_, ?_, kept, by rw [← qt], fun _ _ => qt, fun _ h => absurd h no_grant, fun _ => ?_, fun _ => ?_,
        fun _ _ => ⟨rfl, ?_, ?_⟩, fun h => absurd h no_grant, stations, loading, raises, ⟨?_, ?_, ?_, ?_, ?_, ?_, ?_, ?_⟩,
        trunks⟩
      all_goals rw [left]
    · have idle : s.eu.unit ≠ .building ∨ s.ec.wanted = false := by
        by_cases h : s.eu.unit = .building
        · exact .inr (by simpa [h] using waits)
        · exact .inl h
      rw [evacuationClear_grants latch idle]
      obtain ⟨chosen, after⟩ := someGranted_grant (clearLatch s)
      have kl : (grant (clearLatch s)).kl = (clearLatch s).kl := by simp
      have station : ∀ a, stationAt (grant (clearLatch s)) a = stationAt (clearLatch s) a := fun a => by
        rw [stationAt, kl]; rfl
      have eu : (grant (clearLatch s)).eu = { s.eu with latch := false, unit := .off } := by
        rw [show (grant (clearLatch s)).eu = (clearLatch s).eu by simp, left]
      have ep : (grant (clearLatch s)).ep = { s.ep with flags := s.ep.flags ||| 16 } := by
        rw [show (grant (clearLatch s)).ep = (clearLatch s).ep by simp, left]
      refine ⟨eu, ep, fun e mem => ?_, by rw [after, List.length_map, qt], fun h h' => absurd ⟨h, h'⟩ waits,
        fun table _ => ?_, fun still => ?_, fun still => ?_, fun h h' => absurd ⟨h, h'⟩ waits, fun _ => ?_,
        fun a => station a ▸ stations a, fun h => kl.trans (loading h), fun h a => (station a).trans (raises h a),
        ?_, kl ▸ trunks⟩
      · rw [after] at mem
        obtain ⟨x, hx, rfl⟩ := List.mem_map.1 mem
        split
        · rfl
        · exact kept x hx
      · have granted := grant_granted (s := clearLatch s) (by rw [qt]; exact table.distinct.filter _)
        rw [eu, ep, kl]
        rw [left] at granted
        simpa only [← left] using granted
      · have re : (clearLatch s).re = s.re := by rw [left]
        have idle : grantRoute (clearLatch s) = clearLatch s := grantRoute_none (by
          rcases still with h | h | h
          · refine .inl (Bool.eq_false_iff.2 fun may => h ?_)
            have open' := ((routeMayGrant_iff _).1 may).2.1
            rwa [left] at open'
          · refine .inl (Bool.eq_false_iff.2 fun may => h ?_)
            have open' := ((routeMayGrant_iff _).1 may).1
            rwa [re] at open'
          · refine .inr ?_
            rw [left]
            exact oldestQueued_filter h)
        rw [grant, idle, show (grantFind (clearLatch s)).re = (clearLatch s).re by simp, re]
      · have fe : (clearLatch s).fe = s.fe := by rw [left]
        have gone : oldestQueued (fun e => !isRoute e) s.qt = none →
            oldestQueued (fun e => !isRoute e) (grantRoute (clearLatch s)).qt = none := fun h => by
          obtain ⟨chosen, after⟩ := someGranted_grantRoute (clearLatch s)
          have before : oldestQueued (fun e => !isRoute e) (clearLatch s).qt = none := by
            rw [left]; exact oldestQueued_filter h
          simp only [oldestQueued, List.find?_eq_none] at before ⊢
          rw [after]
          intro e mem
          obtain ⟨x, hx, rfl⟩ := List.mem_map.1 mem
          split
          · simp [granted, isQueued]
          · exact before x hx
        rw [grant, grantFind_none]
        · simp
        · have ec : (clearLatch s).ec = s.ec := by rw [left]
          rcases still with h | h | h
          · exact .inr (.inl (by simpa [ec] using h))
          · exact .inl (by simpa [fe] using h)
          · exact .inr (.inr (gone h))
      · rw [show (grant (clearLatch s)).ec = (clearLatch s).ec by simp, left]
      · refine sameRecords_trans ?_ (sameRecords_grant _)
        refine ⟨?_, ?_, ?_, ?_, ?_, ?_, ?_, ?_⟩
        all_goals rw [left]

end Sys2Proof.Proofs
end

section
/-! PROOF. The EMERGENCY line, turn requests and the service commands, and what a second counts (R50, R51, R58, R59, R72,
R84, R114, R179, R193, R195). -/

namespace Sys2Proof.Proofs
open Sys2Proof.Machine Sys2Proof.Safety Sys2Proof.Laws

/-! ### Events that may be made only when their condition holds -/

section
variable {p : State → Prop} [DecidablePred p] {f : State → State} {s : State}

theorem live_whenever (run : s.resetHeld = false) (h : p s) : live (fun s => whenever (p s) f s) s = .next (f s) := by
  simp [live, run, whenever, h]

theorem live_whenever_not (run : s.resetHeld = false) (h : ¬p s) : live (fun s => whenever (p s) f s) s = .next s := by
  simp [live, run, whenever, h]

end

/-! ### The EMERGENCY line -/

theorem exec_emergencySample {s : State} (run : s.resetHeld = false) (level : Bool) :
    exec (.emergencySample level) s = .next (sampleLine level s) := live_running _ run

theorem exec_emergencyAsserted {s : State} (run : s.resetHeld = false) (released : s.eu.asserted = false)
    (third : s.eu.differing = 2) : exec .emergencyAsserted s = .next (recogniseAsserted s) :=
  live_whenever (p := fun s => s.eu.asserted = false ∧ s.eu.differing = 2) run ⟨released, third⟩

theorem exec_emergencyReleased {s : State} (run : s.resetHeld = false) (asserted : s.eu.asserted = true)
    (third : s.eu.differing = 2) : exec .emergencyReleased s = .next (recogniseReleased s) :=
  live_whenever (p := fun s => s.eu.asserted = true ∧ s.eu.differing = 2) run ⟨asserted, third⟩

theorem recogniseReleased_eq (s : State) : recogniseReleased s =
    { s with eu := { s.eu with asserted := false, differing := 0 }
             ep := { s.ep with flags := s.ep.flags ||| (if s.eu.latch then 16 else 0) } } := by
  cases latch : s.eu.latch <;> simp [recogniseReleased, latch, raiseFlag, evacChange]

/-- Settles O36, by the sample and by how many samples before it differed. -/
theorem lineFiltered : Obligations.LineFiltered := by
  refine ⟨fun s run => ?_, fun s run few => ?_, fun s run released third => ⟨?_, ?_⟩, fun s run asserted third => ⟨?_, ?_⟩⟩
  · rw [exec_emergencySample run, sampleLine, if_pos rfl]
  · rw [exec_emergencySample run, sampleLine, if_neg (by simp), if_pos few]
  · exact exec_emergencyAsserted run released third
  · rw [exec_emergencySample run, sampleLine, if_neg (by simp [released]), if_neg (by omega), if_pos rfl]
    exact (exec_emergencyAsserted run released third).symm
  · rw [← recogniseReleased_eq]
    exact exec_emergencyReleased run asserted third
  · rw [exec_emergencySample run, sampleLine, if_neg (by simp [asserted]), if_neg (by omega), if_neg (by simp)]
    exact (exec_emergencyReleased run asserted third).symm

/-! ### Turn requests (R58) -/

theorem requestTurn_loading {s : State} (loading : s.service = .loading) : requestTurn s = s := by
  simp [requestTurn, loading]

theorem requestTurn_starts {s : State} (service : s.service ≠ .loading) (steady : s.ec.turn = .steady)
    (unit : s.eu.unit ≠ .building) : requestTurn s = { s with ec := startTurn s.ec } := by
  unfold requestTurn
  split
  · exact absurd ‹_› service
  all_goals rw [if_pos ⟨steady, unit⟩]

theorem requestTurn_wants {s : State} (service : s.service ≠ .loading)
    (busy : s.ec.turn ≠ .steady ∨ s.eu.unit = .building) :
    requestTurn s = { s with ec := { s.ec with wanted := true } } := by
  have no_start : ¬(s.ec.turn = .steady ∧ s.eu.unit ≠ .building) := by tauto
  unfold requestTurn
  split
  · exact absurd ‹_› service
  all_goals rw [if_neg no_start]

/-! ### The service commands (R193 to R195) -/

theorem restart_held : HeldFree restart := fun n s => by
  have same : ((List.finRange 96).any fun a => becomesAbsent (stationAt (held n s) a)) =
      (List.finRange 96).any fun a => becomesAbsent (stationAt s a) := rfl
  unfold restart
  rw [same]
  dsimp only
  split <;> rfl

/-- The part restarted, apart from the attention flags. -/
def restarted (s : State) : State :=
  { s with
    service := .starting
    lm := restartedMonitor s.lm
    ec := restartedController s.ec
    qt := { entries := [] }
    re := { s.re with work := none }
    fe := { work := none }
    eu := { s.eu with unit := .off }
    kl := { stations := mapBank (fun _ st => absentRecord st) s.kl.stations
            trunks := mapBank (fun _ k => voidMoved s k) s.kl.trunks } }

theorem restart_eq (s : State) : restart s =
    { restarted s with ep := { s.ep with flags :=
      if ∃ a, (stationAt s a).state ≠ .disabled ∧ (stationAt s a).state ≠ .absent then s.ep.flags ||| 2
      else s.ep.flags } } := by
  have moved : ((List.finRange 96).any fun a => becomesAbsent (stationAt s a)) = true ↔
      ∃ a, (stationAt s a).state ≠ .disabled ∧ (stationAt s a).state ≠ .absent := by
    simp [List.any_eq_true, becomesAbsent_iff]
  unfold restart
  by_cases h : ∃ a, (stationAt s a).state ≠ .disabled ∧ (stationAt s a).state ≠ .absent
  · rw [if_pos h]; dsimp only; rw [if_pos (moved.2 h)]; rfl
  · rw [if_neg h]; dsimp only; rw [if_neg (mt moved.1 h)]; rfl

/-- Settles O35, by service state; the restart from `restart_eq`. -/
theorem serviceCommandsTaken : Obligations.ServiceCommandsTaken := by
  have turns : ∀ s, taking s → exec (.turn (frameOf [])) s = .next (keepForming (actTurn (held 2 s))) :=
    fun s ht => exec_frameOf (p := []) (h := { fits := exactly 0, act := fun _ => actTurn }) rfl ht (by simp) rfl
  have starts : ∀ s, taking s → exec (.startService (frameOf [])) s = .next (keepForming (actStartService (held 2 s))) :=
    fun s ht => exec_frameOf (p := []) (h := { fits := exactly 0, act := fun _ => actStartService }) rfl ht (by simp) rfl
  have restarts : ∀ s, taking s → exec (.restartService (frameOf [])) s = .next (keepForming (actRestart (held 2 s))) :=
    fun s ht => exec_frameOf (p := []) (h := { fits := exactly 0, act := fun _ => actRestart }) rfl ht (by simp) rfl
  have asks : ∀ s, taking s → s.service ≠ .loading →
      exec (.turn (frameOf [])) s = .next (taken 2 (okReply []) (requestTurn s)) := fun s ht service => by
    have acts : actTurn (held 2 s) = done (requestTurn (held 2 s)) := by
      unfold actTurn
      split
      · exact absurd ‹_› service
      all_goals rfl
    rw [turns s ht, acts, keepForming_done requestTurn_held]
  refine ⟨fun s ht => ⟨fun loading => ?_, fun service steady unit => ?_, fun service busy => ?_⟩,
    fun s ht service => ?_, fun s ht loading steady unit => ?_, fun s ht loading => ?_, fun s ht service =>
      ⟨restart s, ?_, ?_⟩⟩
  · have acts : actTurn (held 2 s) = refuse .notInService (held 2 s) := by simp [actTurn, loading]
    rw [turns s ht, acts]
    rfl
  · rw [asks s ht service, requestTurn_starts service steady unit]
    rfl
  · rw [asks s ht service, requestTurn_wants service busy]
  · have acts : actStartService (held 2 s) = refuse .notLoading (held 2 s) := by
      unfold actStartService
      split
      · exact absurd ‹_› service
      all_goals rfl
    rw [starts s ht, acts]
    rfl
  · have entered : { held 2 s with service := .starting } = held 2 { s with service := .starting } := rfl
    have acts : actStartService (held 2 s) = done (requestTurn (held 2 { s with service := .starting })) := by
      unfold actStartService
      split
      · rfl
      all_goals simp_all
    rw [starts s ht, acts, keepForming_done requestTurn_held,
      requestTurn_starts (s := { s with service := .starting }) (by simp) steady unit]
    rfl
  · have acts : actRestart (held 2 s) = refuse .notInService (held 2 s) := by simp [actRestart, loading]
    rw [restarts s ht, acts]
    rfl
  · have acts : actRestart (held 2 s) = done (restart (held 2 s)) := by
      unfold actRestart
      split
      · exact absurd ‹_› service
      all_goals rfl
    rw [restarts s ht, acts, keepForming_done restart_held]
  · have station : ∀ a, stationAt (restart s) a = absentRecord (stationAt s a) := fun a => by
      rw [restart_eq]
      exact mapBank_get (fun _ st => absentRecord st) s.kl.stations a
    have trunk : ∀ k, trunkAt (restart s) k = voidMoved s (trunkAt s k) := fun k => by
      rw [restart_eq]
      exact mapBank_get (fun _ k => voidMoved s k) s.kl.trunks k
    refine ⟨?_, ?_, ?_, ?_, ?_, ?_, ?_, ?_, ?_, ?_, ?_, ?_, ?_, fun n => ?_, fun a state => ?_, fun a state => ?_,
      fun moved => ?_, fun unmoved => ?_, fun k => ?_, ?_, ?_, ?_, ?_, ?_⟩
    · rw [restart_eq]; rfl
    · rw [restart_eq]; rfl
    · rw [restart_eq]; rfl
    · rw [restart_eq]; rfl
    · rw [restart_eq]; rfl
    · rw [restart_eq]; rfl
    · rw [restart_eq]; rfl
    · rw [restart_eq]; rfl
    · rw [restart_eq]; rfl
    · rw [restart_eq]; rfl
    · rw [restart_eq]; rfl
    · rw [restart_eq]; rfl
    · rw [restart_eq]; rfl
    · rw [restart_eq]
      exact tableGet_map (fun _ e => restartEntry e) s.lm.entries n
    · rw [station, absentRecord, if_pos state]
    · rw [station, absentRecord, if_neg state]
    · rw [restart_eq, if_pos moved]
    · rw [restart_eq, if_neg]
      rintro ⟨a, disabled, absent⟩
      exact (unmoved a).elim disabled absent
    · rw [trunk]
      exact ⟨rfl, rfl, rfl, rfl, rfl, rfl⟩
    all_goals rw [restart_eq]
    all_goals rfl

/-! ### What a second counts -/

theorem countSecond_eq (s : State) : countSecond s =
    { s with
      ec := countAutoTurn s.service s.ec
      qt := { entries := s.qt.entries.map countHold }
      lm := agedMonitor s.config.staleLimit s.lm
      ep := { s.ep with flags := s.ep.flags ||| staleFlag s.config.staleLimit s.lm } } := by
  rw [countSecond, ageReadings_eq]

theorem exec_secondEvent {s : State} (run : s.resetHeld = false) : exec .secondEvent s = .next (secondEvent s) :=
  live_running _ run

/-- Settles O23: the clock counts a second, and `countSecond_eq` says what else does. -/
theorem secondsCounted : Obligations.SecondsCounted := by
  intro s run early
  refine ⟨_, holdsCounted_map s.qt.entries, ?_⟩
  have ticked : tickClock s = { s with cs := { s.cs with clock := { s.cs.clock with
      seconds := if s.cs.clock.set then s.cs.clock.seconds + 1 else s.cs.clock.seconds } } } := by
    cases set : s.cs.clock.set
    · rw [tickClock, if_neg (by simp [set]), if_neg (by simp)]
    · have := early set
      rw [tickClock, if_pos set, if_neg (by omega)]
      simp [set]
  rw [exec_secondEvent run, secondEvent, countSecond_eq, ticked]
  rfl

/-! ### The minute (R50, R51) -/

theorem nextMinute_eq {m : Nat} (day : m ≤ 1439) : nextMinute m = (m + 1) % 1440 := by
  unfold nextMinute
  split <;> omega

/-- The part with the minute advanced and the schedule served, before any turn request. -/
def minuteTurned (s : State) : State :=
  let first := servePass (fun e => e.due)
    { s.cs with clock := { set := true, minute := (s.cs.clock.minute + 1) % 1440, seconds := 0 } }
  let second := servePass (fun e => !e.due && e.minute == (s.cs.clock.minute + 1) % 1440) first.cs
  { s with
    cs := second.cs
    ec := { s.ec with rollover := s.ec.rollover || s.cs.clock.minute == 1439 }
    ep := { s.ep with flags := s.ep.flags ||| dueFlag (first.becameDue || second.becameDue) } }

/-- The minute event makes a turn request for a rollover or an urgent move. -/
def minuteAsks (s : State) : Bool :=
  let first := servePass (fun e => e.due)
    { s.cs with clock := { set := true, minute := (s.cs.clock.minute + 1) % 1440, seconds := 0 } }
  let second := servePass (fun e => !e.due && e.minute == (s.cs.clock.minute + 1) % 1440) first.cs
  s.cs.clock.minute == 1439 || (first.urgent || second.urgent)

theorem minuteEvent_eq {s : State} (set : s.cs.clock.set = true) (day : s.cs.clock.minute ≤ 1439) :
    minuteEvent s = requestIf (minuteAsks s) (minuteTurned s) := by
  simp only [minuteEvent, serveSchedule_eq, nextMinute_eq day, set]
  rfl

/-- The auto-turn countdown and its mark after a second (R59). -/
theorem countAutoTurn_fields (mode : Service) (ec : EpochController) :
    (countAutoTurn mode ec).countdown = (if mode = .service ∧ ec.turn = .steady then ec.countdown - 1 else ec.countdown)
      ∧ (countAutoTurn mode ec).expiring =
        (ec.expiring || (decide (mode = .service ∧ ec.turn = .steady) && ec.countdown == 1))
      ∧ (countAutoTurn mode ec).turn = ec.turn ∧ (countAutoTurn mode ec).wanted = ec.wanted
      ∧ (countAutoTurn mode ec).rollover = ec.rollover ∧ (countAutoTurn mode ec).epoch = ec.epoch
      ∧ (countAutoTurn mode ec).report = ec.report := by
  unfold countAutoTurn
  by_cases counts : mode = .service ∧ ec.turn = .steady
  · by_cases left : 0 < ec.countdown
    · simp [counts, left]
    · have zero : ec.countdown = 0 := by omega
      simp [counts, zero]
  · have never : ¬(mode = .service ∧ ec.turn = .steady ∧ 0 < ec.countdown) := fun h => counts ⟨h.1, h.2.1⟩
    simp [counts, never]

/-- The three ways a request of a turn can go (R58, R60). -/
theorem requestIf_cases (b : Bool) (s : State) :
    (b = true ∧ s.service ≠ .loading ∧ s.ec.turn = .steady ∧ s.eu.unit ≠ .building
        ∧ requestIf b s = { s with ec := startTurn s.ec })
      ∨ (b = true ∧ s.service ≠ .loading ∧ (s.ec.turn ≠ .steady ∨ s.eu.unit = .building)
        ∧ requestIf b s = { s with ec := { s.ec with wanted := true } })
      ∨ ((b = false ∨ s.service = .loading) ∧ requestIf b s = s) := by
  cases b with
  | false => exact .inr (.inr ⟨.inl rfl, rfl⟩)
  | true =>
    by_cases loading : s.service = .loading
    · exact .inr (.inr ⟨.inr loading, requestTurn_loading loading⟩)
    · by_cases free : s.ec.turn = .steady ∧ s.eu.unit ≠ .building
      · exact .inl ⟨rfl, loading, free.1, free.2, requestTurn_starts loading free.1 free.2⟩
      · have busy : s.ec.turn ≠ .steady ∨ s.eu.unit = .building := by tauto
        exact .inr (.inl ⟨rfl, loading, busy, requestTurn_wants loading busy⟩)

/-- Settles O24, from the minute's work and from what `countSecond_eq` counts under the turn state that results. -/
theorem minuteServed : Obligations.MinuteServed := by
  intro s run set wrap day
  have minute : exec .minuteEvent s = .next (secondEvent s) :=
    live_whenever (p := fun s => s.cs.clock.set = true ∧ s.cs.clock.seconds = 59) run ⟨set, wrap⟩
  have ticked : tickClock s = requestIf (minuteAsks s) (minuteTurned s) := by
    rw [tickClock, if_pos set, if_pos (by omega), minuteEvent_eq set day]
  refine ⟨by rw [minute, exec_secondEvent run], secondEvent s, minute, ?_⟩
  intro m first second asked
  have asks : minuteAsks s = true ↔ asked := by
    simp only [minuteAsks, Bool.or_eq_true, beq_iff_eq]
    exact Iff.rfl
  rw [secondEvent, countSecond_eq, ticked]
  obtain ⟨ask, service, steady, unit, eq⟩ | ⟨ask, service, busy, eq⟩ | ⟨quiet, eq⟩ :=
    requestIf_cases (minuteAsks s) (minuteTurned s)
  · rw [eq]
    have steady' : s.ec.turn = .steady := steady
    obtain ⟨countdown, expiring, turn, wanted, rollover, epoch, report⟩ :=
      countAutoTurn_fields s.service (startTurn (minuteTurned s).ec)
    refine ⟨rfl, rfl, rfl, holdsCounted_map _, ?_, fun still => ?_, rollover, fun _ _ _ _ => ⟨turn, wanted, ?_⟩,
      fun _ _ busy => ?_, fun unasked => ?_, epoch, report, rfl, rfl, rfl, rfl, rfl, rfl, rfl, rfl⟩
    · refine countdown.trans ?_
      rw [← turn]
      rfl
    · exact absurd (turn.symm.trans still) (by simp [startTurn, steady'])
    · exact expiring.trans (by simp [startTurn])
    · exact absurd busy (by simp [steady', show s.eu.unit ≠ .building from unit])
    · exact absurd unasked (by simp [asks.1 ask, show s.service ≠ .loading from service])
  · rw [eq]
    obtain ⟨countdown, expiring, turn, wanted, rollover, epoch, report⟩ :=
      countAutoTurn_fields s.service { (minuteTurned s).ec with wanted := true }
    refine ⟨rfl, rfl, rfl, holdsCounted_map _, ?_, fun _ => expiring, rollover, fun _ _ steady unit => ?_, fun _ _ _ => ⟨wanted, turn⟩,
      fun unasked => ?_, epoch, report, rfl, rfl, rfl, rfl, rfl, rfl, rfl, rfl⟩
    · refine countdown.trans ?_
      rw [← turn]
      rfl
    · exact absurd busy (by simp [minuteTurned, steady, unit])
    · exact absurd unasked (by simp [asks.1 ask, show s.service ≠ .loading from service])
  · rw [eq]
    obtain ⟨countdown, expiring, turn, wanted, rollover, epoch, report⟩ :=
      countAutoTurn_fields s.service (minuteTurned s).ec
    have unasked : asked → s.service ≠ .loading → False := fun ask service =>
      quiet.elim (fun no => by simp [asks.2 ask] at no) service
    refine ⟨rfl, rfl, rfl, holdsCounted_map _, ?_, fun _ => expiring, rollover, fun ask service => (unasked ask service).elim,
      fun ask service => (unasked ask service).elim, fun _ => ⟨turn, wanted⟩, epoch, report, rfl, rfl, rfl, rfl, rfl, rfl, rfl, rfl⟩
    refine countdown.trans ?_
    rw [← turn]
    rfl

end Sys2Proof.Proofs
end

section
/-! PROOF. The expiries of a second and the steps of a turn (R59 to R62, R66 to R68, R70 to R72, R84, R114). -/

namespace Sys2Proof.Proofs
open Sys2Proof.Machine Sys2Proof.Safety Sys2Proof.Laws

/-! ### The expiries -/

theorem exec_autoTurnExpiry {s : State} (run : s.resetHeld = false) (expiring : s.ec.expiring = true)
    (steady : s.ec.turn = .steady) :
    exec .autoTurnExpiry s = .next (requestTurn { s with ec := { s.ec with expiring := false } }) :=
  live_whenever (p := fun s => s.ec.expiring = true ∧ s.ec.turn = .steady)
    (f := fun s => requestTurn { s with ec := { s.ec with expiring := false } }) run ⟨expiring, steady⟩

theorem tickClock_monitor (s : State) : (tickClock s).lm = s.lm ∧ (tickClock s).config = s.config := by
  unfold tickClock
  split
  · split
    · simp
    · exact ⟨rfl, rfl⟩
  · exact ⟨rfl, rfl⟩

theorem exec_holdExpiry {s : State} {a : Addr} {tag : Tag} {e : QueryEntry} (run : s.resetHeld = false)
    (found : findEntry s.qt a tag = some e) (ready : e.state = .ready 0) :
    exec (.holdExpiry a tag) s = .next (freeEntry e s) := by
  show execHoldExpiry a tag s = _
  simp [execHoldExpiry, live, run, found, ready]

/-- Settles O25: each expiry's step against the second that it belongs to. -/
theorem expiriesTaken : Obligations.ExpiriesTaken := by
  refine ⟨fun s run expiring service => ⟨fun steady unit => ?_, fun steady building => ?_, fun turning => ?_⟩,
    fun n s run => ⟨fun e found stale => ?_, fun fresh => ?_⟩, fun a tag e s run found ready => ?_⟩
  · rw [exec_autoTurnExpiry run expiring steady,
      requestTurn_starts (s := { s with ec := { s.ec with expiring := false } }) service steady unit]
    simp [startTurn]
  · rw [exec_autoTurnExpiry run expiring steady,
      requestTurn_wants (s := { s with ec := { s.ec with expiring := false } }) service (.inr building)]
  · exact live_whenever_not (p := fun s => s.ec.expiring = true ∧ s.ec.turn = .steady) run fun h => turning h.2
  · have due : exec (.staleExpiry n) s = .next (secondEvent s) :=
      live_whenever (p := fun s => (tableGet s.lm.entries n).any (goesStale s.config.staleLimit) = true) run
        (by simpa [found] using (goesStale_iff _ e).2 stale)
    obtain ⟨lm, config⟩ := tickClock_monitor s
    refine ⟨by rw [due, exec_secondEvent run], secondEvent s, due, ?_, ?_⟩
    · rw [secondEvent, countSecond_eq, lm, config]
      simp [tableGet_aged, found, aged, stale]
    · have someone : ∃ p ∈ s.lm.entries, staleNow s.config.staleLimit p.2 := ⟨_, mem_of_tableGet found, stale⟩
      rw [secondEvent, countSecond_eq, lm, config]
      simp [staleFlag, if_pos someone]
  · refine live_whenever_not (p := fun s => (tableGet s.lm.entries n).any (goesStale s.config.staleLimit) = true) run ?_
    cases found : tableGet s.lm.entries n with
    | none => simp
    | some e => simpa using mt (goesStale_iff _ e).1 (fresh e found)
  · obtain ⟨-, rfl, rfl⟩ := findEntry_some found
    refine ⟨freeEntry e s, exec_holdExpiry run found ready, rfl, ?_, ?_, ?_, by simp, by simp⟩
    · exact stationAt_updateStation_same s _ _
    · exact fun b other => stationAt_updateStation_other s _ other
    · simp [sameButQueries, sameRecords]

/-! ### The end of DRAINING and the staged edits -/

theorem exec_drainComplete {s : State} (run : s.resetHeld = false) (done : drained s = true) :
    exec .drainComplete s = .next (beginApplying s) := live_whenever (p := fun s => drained s = true) run done

theorem tableGet_rolloverListings (frozen : Bool) (listings : List (Nat × Listing)) (n : Nat) :
    tableGet (rolloverListings frozen listings) n = (tableGet listings n).map fun l =>
      { l with status := if l.status = .closedToday then .opened else l.status
               popularity := if frozen then l.popularity else l.popularity / 2 } := by
  rw [rolloverListings, tableGet_map]
  congr 1
  funext l
  cases frozen <;> by_cases closed : l.status = .closedToday <;> simp [reopen, halveCount, closed]

/-- Settles O37, by whether rollover work is pending. -/
theorem drainingEnds : Obligations.DrainingEnds := by
  intro s run draining re fe unit
  refine ⟨beginApplying s, exec_drainComplete run ((drained_iff s).2 ⟨draining, re, fe, unit⟩), ?_⟩
  cases rollover : s.ec.rollover
  · have begun : beginApplying s = { s with ec := { s.ec with
        turn := .applying, work := { TurnWork.initial with remaining := s.cs.queue.length } } } := by
      simp [beginApplying, rollover]
    rw [begun]
    simp [rollover, TurnWork.initial]
  · have begun : beginApplying s = { s with
        ds := { s.ds with listings := rolloverListings s.config.frozen s.ds.listings }
        ec := { s.ec with
          turn := .applying, rollover := false
          work := { TurnWork.initial with
            remaining := s.cs.queue.length, groups := rolloverGroups s.ds.listings } } } := by
      simp [beginApplying, rollover]
    rw [begun]
    refine ⟨rfl, rfl, rfl, rfl, rfl, rfl, fun no => by simp at no, fun _ => ⟨tableGet_rolloverListings _ _, rfl, ?_⟩,
      rfl, rfl, rfl, rfl, rfl, rfl, rfl, rfl, rfl, rfl, rfl, rfl, rfl, rfl, rfl⟩
    have someone : (s.ds.listings.any fun p => p.2.status == .closedToday) = true ↔
        ∃ x ∈ s.ds.listings, x.2.status = .closedToday := by simp
    simp only [rolloverGroups, someone]

/-- Settles O38, by what the application test of the head says. -/
theorem stagedEditTaken : Obligations.StagedEditTaken := by
  intro s x rest run applying left queue u
  have taken : exec .applyStagedEdit s = .next (takeHead s) :=
    live_whenever (p := fun s => s.ec.turn = .applying ∧ 0 < s.ec.work.remaining) run ⟨applying, left⟩
  refine ⟨fun reason rejected => ?_, fun passes => ?_⟩
  · have head : takeHead s = withWork (countRejected x.seq reason s.ec.work) u := by
      simp [takeHead, queue, editTest_stage, rejected, u]
    rw [taken, head]
    cases first : s.ec.work.first <;> simp [countRejected, withWork, first, u]
  · have head : takeHead s = withWork (countApplied (applyEdit x.edit s).2 (applyEdit x.edit s).1.ec.work)
        { (applyEdit x.edit s).1 with cs := u.cs } := by
      simp [takeHead, queue, editTest_stage, passes, applyEdit_stage, u]
    rw [taken, head]
    refine ⟨_, rfl, ?_⟩
    simp [withWork, countApplied]

/-! ### Sampling and repair -/

theorem repairListing_repaired {listings : List (Nat × Listing)} {l : Listing} {f : Nat} (relocated : l.status = .relocated)
    (forward : l.forward = some f) (free : tableGet listings f = none) :
    repairListing listings l = { l with status := .closed, forward := none } := by
  simp [repairListing, relocated, forward, inUse, free]

theorem repairListing_kept {listings : List (Nat × Listing)} {l : Listing}
    (good : ¬∃ f, l.status = .relocated ∧ l.forward = some f ∧ tableGet listings f = none) :
    repairListing listings l = l := by
  unfold repairListing
  split
  next f relocated forward =>
    have used : tableGet listings f ≠ none := fun free => good ⟨f, relocated, forward, free⟩
    rw [if_pos (by simpa [inUse, Option.isSome_iff_ne_none] using used)]
  next => rfl

/-- A request during a turn leaves turn-wanted (R58). -/
theorem requestIf_applying {s : State} (applying : s.ec.turn = .applying) (b : Bool) : requestIf b s =
    { s with ec := { s.ec with wanted := s.ec.wanted || (b && s.service != .loading) } } := by
  obtain ⟨_, _, steady, _⟩ | ⟨rfl, service, _, eq⟩ | ⟨quiet, eq⟩ := requestIf_cases b s
  · simp [applying] at steady
  · rw [eq]; simp [service]
  · have none_made : (b && s.service != .loading) = false := by rcases quiet with rfl | loading <;> simp [*]
    rw [eq, none_made, Bool.or_false]

/-- The part with its weights sampled and its DUE entries served, before any turn request (R56, R66). -/
def sampledPart (s : State) : State :=
  { s with
    wg := sampleWeights (liveWeight s.lm) s.wg
    cs := (servePass (fun e => e.due) s.cs).cs
    ep := { s.ep with flags := s.ep.flags ||| dueFlag (servePass (fun e => e.due) s.cs).becameDue } }

theorem sampleAndValidate_eq {s : State} (applying : s.ec.turn = .applying) : sampleAndValidate s =
    { sampledPart s with ec := { s.ec with
      turn := .validating, work := { s.ec.work with validation := .repair }
      wanted := s.ec.wanted || ((servePass (fun e => e.due) s.cs).urgent && s.service != .loading) } } := by
  have requested := requestIf_applying (s := sampledPart s) applying (servePass (fun e => e.due) s.cs).urgent
  have pass : duePass { s with wg := sampleWeights (liveWeight s.lm) s.wg } =
      (sampledPart s, (servePass (fun e => e.due) s.cs).urgent) := passOf_eq _ _
  rw [sampleAndValidate]
  simp only [pass, requested]
  rfl

/-- Settles O40: the DUE pass makes a request during a turn, and the repair looks at each listing alone. -/
theorem weightsSampledForwardsRepaired : Obligations.WeightsSampledForwardsRepaired := by
  refine ⟨fun s run applying done => ⟨sampleAndValidate s, ?_, ?_⟩, fun s run validating repair => ⟨repairStep s, ?_, ?_⟩⟩
  · exact live_whenever (p := fun s => s.ec.turn = .applying ∧ s.ec.work.remaining = 0) run ⟨applying, done⟩
  · rw [sampleAndValidate_eq applying]
    refine ⟨rfl, rfl, rfl, ?_, rfl, rfl, rfl, rfl, rfl, rfl, rfl, rfl, rfl, rfl, rfl, rfl, rfl, rfl⟩
    exact tableGet_map (fun n g => { g with weight := liveWeight s.lm n }) s.wg.segments
  · exact live_whenever (p := fun s => s.ec.turn = .validating ∧ s.ec.work.validation = .repair) run ⟨validating, repair⟩
  · have listing : ∀ n, tableGet (repairStep s).ds.listings n =
        (tableGet s.ds.listings n).map (repairListing s.ds.listings) :=
      tableGet_map (fun _ => repairListing s.ds.listings) s.ds.listings
    refine ⟨fun n l found => ⟨fun ⟨f, relocated, forward, free⟩ => ?_, fun good => ?_⟩, fun n free => ?_, rfl, ?_, rfl,
      validating, rfl, rfl, rfl, rfl, rfl, rfl, rfl, rfl, rfl, rfl, rfl⟩
    · rw [listing, found, Option.map_some, repairListing_repaired relocated forward free]
    · rw [listing, found, Option.map_some, repairListing_kept good]
    · rw [listing, free, Option.map_none]
    · by_cases same : repairAll s.ds.listings = s.ds.listings <;> simp [repairStep, withWork, same]

/-! ### Completion -/

/-- The tree as a build begins it (R183). -/
theorem treeBegun_beginTree (wg : Graph) : TreeBegun wg (beginTree wg) := by
  intro sorted exits
  have ascending : exits.Pairwise (· < ·) := by
    rw [List.pairwise_map]
    exact sorted.filter _
  have sources := sources_of_ascending ascending
  refine ⟨sources.approximate, sources.frontier, sources.each, fun n => ?_⟩
  simp only [exits, List.mem_map, List.mem_filter, beq_iff_eq]
  constructor
  · rintro ⟨⟨m, node⟩, ⟨mem, kind⟩, rfl⟩
    exact ⟨node, tableGet_of_mem sorted mem, kind⟩
  · rintro ⟨node, found, kind⟩
    exact ⟨(n, node), ⟨mem_of_tableGet found, kind⟩, rfl⟩

theorem grant_eq (s : State) : grant s = { s with qt := (grant s).qt, re := (grant s).re, fe := (grant s).fe } := by
  obtain ⟨h1, h2, h3, h4, h5, h6, h7, h8, h9, h10, h11, h12⟩ := grant_frame s
  cases hg : grant s
  simp_all

/-- A grant by both arbiters, seen from the part it leaves. -/
theorem granted_grant {u : State} (distinct : TagsDistinct u.qt.entries) :
    Granted { grant u with qt := u.qt, re := u.re, fe := u.fe } (grant u) := by
  have before : { grant u with qt := u.qt, re := u.re, fe := u.fe } = u := by rw [grant_eq]
  rw [before]
  exact grant_granted distinct

/-- Completion apart from the attention flag, from the parts it is made of (R70 to R72, R172). -/
theorem completeTurn_eq (s : State) : completeTurn s = { s with
    ec := completedController s.config.autoTurn s.ec
    service := if s.service = .starting then .service else s.service
    ep := { s.ep with flags := s.ep.flags ||| 1 }
    kl := (completeTurn s).kl } := by
  unfold completeTurn
  cases service : s.service <;> rfl

theorem stationAt_completeTurn (s : State) (a : Addr) :
    stationAt (completeTurn s) a = raised s.ec.work.groups (stationAt s a) :=
  (stationAt_mapStations _ _ a).trans (raiseAt_eq _ _)

/-- Settles O42, by the latch and by whether a turn is wanted. -/
theorem turnCompletes : Obligations.TurnCompletes := by
  intro s run validating completion
  refine ⟨afterTurn (completeTurn s), live_whenever
    (p := fun s => s.ec.turn = .validating ∧ s.ec.work.validation = .completion)
    (f := fun s => afterTurn (completeTurn s)) run ⟨validating, completion⟩, ?_⟩
  have done := completeTurn_eq s
  have ec : (completeTurn s).ec = completedController s.config.autoTurn s.ec := by rw [done]
  have eu : (completeTurn s).eu = s.eu := by rw [done]
  have station := stationAt_completeTurn s
  have granted : ∀ u : State, u.qt = s.qt → u.re = s.re → u.fe = s.fe → TableInv s →
      Granted { grant u with qt := s.qt, re := s.re, fe := s.fe } (grant u) := fun u qt re fe table => by
    rw [← qt, ← re, ← fe]
    exact granted_grant (by rw [qt]; exact table.distinct)
  have left : ∀ t : State, t.service = (completeTurn s).service ∧ t.ep = (completeTurn s).ep ∧ t.kl = (completeTurn s).kl
        ∧ t.ds = (completeTurn s).ds ∧ t.wg = (completeTurn s).wg ∧ t.lm = (completeTurn s).lm
        ∧ t.cs = (completeTurn s).cs ∧ t.config = (completeTurn s).config →
      t.service = (if s.service = .starting then .service else s.service)
        ∧ t.ep = { s.ep with flags := s.ep.flags ||| 1 }
        ∧ (∀ a, stationAt t a = raised s.ec.work.groups (stationAt s a))
        ∧ t.ds = s.ds ∧ t.wg = s.wg ∧ t.lm = s.lm ∧ t.cs = s.cs ∧ t.config = s.config
        ∧ t.kl.trunks = s.kl.trunks := by
    rintro t ⟨service, ep, kl, ds, wg, lm, cs, config⟩
    refine ⟨?_, ?_, fun a => ?_, ?_, ?_, ?_, ?_, ?_, ?_⟩
    · rw [service, done]
    · rw [ep, done]
    · rw [stationAt, kl]; exact station a
    · rw [ds, done]
    · rw [wg, done]
    · rw [lm, done]
    · rw [cs, done]
    · rw [config, done]
    · rw [kl]; rfl
  cases latch : s.eu.latch
  · cases wanted : s.ec.wanted
    · have after : afterTurn (completeTurn s) = grant (completeTurn s) := by
        simp [afterTurn, eu, latch, ec, completedController, wanted]
      have ec' : (grant (completeTurn s)).ec = completedController s.config.autoTurn s.ec := by simp [ec]
      have eu' : (grant (completeTurn s)).eu = s.eu := by simp [eu]
      obtain ⟨service, ep, stations, ds, wg, lm, cs, config, trunks⟩ :=
        left (grant (completeTurn s)) (by simp)
      have granted := granted (completeTurn s) (by rw [done]) (by rw [done]) (by rw [done])
      dsimp only at granted
      rw [ec', eu'] at granted
      rw [after, ec', eu']
      refine ⟨rfl, rfl, rfl, rfl, service, ep, stations, by simp, by simp, fun _ _ => ⟨rfl, wanted⟩, fun _ => rfl,
        fun table _ => granted table, ds, wg, lm, cs, config, trunks⟩
    · have after : afterTurn (completeTurn s) =
          { completeTurn s with ec := startWanted (completedController s.config.autoTurn s.ec) } := by
        simp [afterTurn, eu, latch, ec, completedController, wanted]
      obtain ⟨service, ep, stations, ds, wg, lm, cs, config, trunks⟩ := 
        left { completeTurn s with ec := startWanted (completedController s.config.autoTurn s.ec) } (by simp)
      rw [after]
      refine ⟨rfl, rfl, rfl, rfl, service, ep, stations, by simp, fun _ _ => ⟨rfl, rfl, ?_, ?_, ?_⟩, by simp, fun _ => eu,
        fun _ h => by simp at h, ds, wg, lm, cs, config, trunks⟩
      all_goals rw [done]
  · have after : afterTurn (completeTurn s) = grant (startBuild (completeTurn s)) := by
      simp [afterTurn, eu, latch]
    have ec' : (grant (startBuild (completeTurn s))).ec = completedController s.config.autoTurn s.ec := by simp [ec]
    have eu' : (grant (startBuild (completeTurn s))).eu = { s.eu with unit := .building, tree := beginTree s.wg } := by
      have wg : (completeTurn s).wg = s.wg := by rw [done]
      rw [show (grant (startBuild (completeTurn s))).eu = (startBuild (completeTurn s)).eu by simp, startBuild, wg, eu]
    obtain ⟨service, ep, stations, ds, wg, lm, cs, config, trunks⟩ := left (grant (startBuild (completeTurn s))) (by simp)
    have closed : grantRoute (startBuild (completeTurn s)) = startBuild (completeTurn s) :=
      grantRoute_none (.inl (by simp [routeMayGrant, eu, latch]))
    have re : (completeTurn s).re = s.re := by rw [done]
    have qt : (completeTurn s).qt = s.qt := by rw [done]
    have fe : (completeTurn s).fe = s.fe := by rw [done]
    have granted := granted (startBuild (completeTurn s)) qt re fe
    dsimp only at granted
    rw [ec', eu'] at granted
    rw [after, ec', eu']
    refine ⟨rfl, rfl, rfl, rfl, service, ep, stations, fun _ => ⟨rfl, rfl, ⟨_, rfl, treeBegun_beginTree _⟩, ?_⟩, by simp,
      by simp, by simp, fun table _ => granted table, ds, wg, lm, cs, config, trunks⟩
    rw [grant, closed]
    simp [re]

end Sys2Proof.Proofs
end

section
/-! PROOF. The reachability floods mark the nodes that permitted moves from the homes can reach (R68). -/

namespace Sys2Proof.Proofs
open Sys2Proof.Machine Sys2Proof.Safety Sys2Proof.Laws

/-! ### One round -/

theorem permitted_ends {profile : Profile} {g : Segment} {p q : Nat} (moves : permitted profile g p q = true) :
    (g.endA = p ∧ g.endB = q) ∨ (g.endA = q ∧ g.endB = p) := by
  simp only [permitted, Bool.and_eq_true, Bool.or_eq_true, beq_iff_eq] at moves
  obtain ⟨⟨⟨ends, -⟩, -⟩, -⟩ := moves
  exact ends

theorem mem_reachedBy {profile : Profile} {marked : List Nat} {g : Segment} {m : Nat} :
    m ∈ reachedBy profile marked g ↔ ∃ q ∈ marked, permitted profile g q m = true := by
  constructor
  · intro mem
    rcases List.mem_append.1 mem with forward | backward
    · split at forward
      next moves =>
        obtain rfl := List.mem_singleton.1 forward
        simp only [Bool.and_eq_true, List.contains_iff_mem] at moves
        exact ⟨_, moves⟩
      next => simp at forward
    · split at backward
      next moves =>
        obtain rfl := List.mem_singleton.1 backward
        simp only [Bool.and_eq_true, List.contains_iff_mem] at moves
        exact ⟨_, moves⟩
      next => simp at backward
  · rintro ⟨q, mem, moves⟩
    rcases permitted_ends moves with ⟨rfl, rfl⟩ | ⟨rfl, rfl⟩
    · exact List.mem_append.2 (.inl (by simp [mem, moves]))
    · exact List.mem_append.2 (.inr (by simp [mem, moves]))

theorem mem_foldl_insertNat {found acc : List Nat} {m : Nat} :
    m ∈ found.foldl (fun m n => insertNat n m) acc ↔ m ∈ acc ∨ m ∈ found := by
  induction found generalizing acc with
  | nil => simp
  | cons n found ih => rw [List.foldl_cons, ih, mem_insertNat, List.mem_cons]; tauto

theorem foldl_insertNat_ascending {found acc : List Nat} (ascending : acc.Pairwise (· < ·)) :
    (found.foldl (fun m n => insertNat n m) acc).Pairwise (· < ·) := by
  induction found generalizing acc with
  | nil => exact ascending
  | cons n found ih => exact ih (insertNat_ascending ascending)

section
variable {profile : Profile} {segments : List (Nat × Segment)} {marked : List Nat}

theorem floodRound_cons (p : Nat × Segment) : floodRound profile (p :: segments) marked =
    floodRound profile segments ((reachedBy profile marked p.2).foldl (fun m n => insertNat n m) marked) := rfl

theorem floodRound_ascending (ascending : marked.Pairwise (· < ·)) :
    (floodRound profile segments marked).Pairwise (· < ·) := by
  induction segments generalizing marked with
  | nil => exact ascending
  | cons p segments ih => exact ih (foldl_insertNat_ascending ascending)

theorem subset_floodRound : marked ⊆ floodRound profile segments marked := by
  induction segments generalizing marked with
  | nil => exact List.Subset.refl _
  | cons p segments ih => exact fun m mem => ih (mem_foldl_insertNat.2 (.inl mem))

/-- A round marks only what a predicate holds of that permitted moves preserve. -/
theorem floodRound_keeps {P : Nat → Prop}
    (kept : ∀ p ∈ segments, ∀ q m, P q → permitted profile p.2 q m = true → P m) (first : ∀ m ∈ marked, P m) :
    ∀ m ∈ floodRound profile segments marked, P m := by
  induction segments generalizing marked with
  | nil => exact first
  | cons p segments ih =>
    refine ih (fun p' mem => kept p' (List.mem_cons_of_mem _ mem)) fun m mem => ?_
    rcases mem_foldl_insertNat.1 mem with old | new
    · exact first m old
    · obtain ⟨q, marked, moves⟩ := mem_reachedBy.1 new
      exact kept p List.mem_cons_self q m (first q marked) moves

/-- A round marks what one permitted move reaches from a marked node. -/
theorem floodRound_covers {p : Nat × Segment} (mem : p ∈ segments) {q m : Nat} (from_marked : q ∈ marked)
    (moves : permitted profile p.2 q m = true) : m ∈ floodRound profile segments marked := by
  induction segments generalizing marked with
  | nil => simp at mem
  | cons p' segments ih =>
    rw [floodRound_cons]
    rcases List.mem_cons.1 mem with rfl | later
    · exact subset_floodRound (mem_foldl_insertNat.2 (.inr (mem_reachedBy.2 ⟨q, from_marked, moves⟩)))
    · exact ih later (mem_foldl_insertNat.2 (.inl from_marked))

/-- A round that marks nothing new leaves the list as it was; any other makes it longer. -/
theorem floodRound_longer (ascending : marked.Pairwise (· < ·)) :
    floodRound profile segments marked = marked ∨ marked.length < (floodRound profile segments marked).length := by
  have nodup : marked.Nodup := ascending.imp fun h => h.ne
  have sub := nodup.subperm (subset_floodRound (profile := profile) (segments := segments))
  by_cases longer : marked.length < (floodRound profile segments marked).length
  · exact .inr longer
  · have same := sub.perm_of_length_le (Nat.not_lt.1 longer)
    exact .inl (ascending_ext (floodRound_ascending ascending) ascending fun m => same.mem_iff.symm)

/-! ### All rounds -/

theorem length_le_of_ascending {n : Nat} {l : List Nat} (ascending : l.Pairwise (· < ·)) (below : ∀ m ∈ l, m < n) :
    l.length ≤ n := by
  have nodup : l.Nodup := ascending.imp fun h => h.ne
  simpa using (nodup.subperm fun m mem => List.mem_range.2 (below m mem)).length_le

theorem floodFrom_keeps {P : Nat → Prop}
    (kept : ∀ p ∈ segments, ∀ q m, P q → permitted profile p.2 q m = true → P m) (fuel : Nat)
    (first : ∀ m ∈ marked, P m) : ∀ m ∈ floodFrom profile segments fuel marked, P m := by
  induction fuel generalizing marked with
  | zero => exact first
  | succ fuel ih =>
    rw [floodFrom]
    split
    · exact first
    · exact ih (floodRound_keeps kept first)

theorem subset_floodFrom (fuel : Nat) : marked ⊆ floodFrom profile segments fuel marked := by
  induction fuel generalizing marked with
  | zero => exact List.Subset.refl _
  | succ fuel ih =>
    rw [floodFrom]
    split
    · exact List.Subset.refl _
    · exact List.Subset.trans subset_floodRound ih

/-- With enough rounds for the nodes that can be marked, the last round marks nothing new. -/
theorem floodRound_floodFrom {n : Nat} (ends : ∀ p ∈ segments, p.2.endA < n ∧ p.2.endB < n) (fuel : Nat)
    (ascending : marked.Pairwise (· < ·)) (below : ∀ m ∈ marked, m < n) (enough : n ≤ marked.length + fuel) :
    floodRound profile segments (floodFrom profile segments fuel marked) = floodFrom profile segments fuel marked := by
  have stays : ∀ p ∈ segments, ∀ q m, q < n → permitted profile p.2 q m = true → m < n := fun p mem q m _ moves => by
    rcases permitted_ends moves with ⟨-, rfl⟩ | ⟨rfl, -⟩
    · exact (ends p mem).2
    · exact (ends p mem).1
  induction fuel generalizing marked with
  | zero =>
    have short := length_le_of_ascending (floodRound_ascending ascending) (floodRound_keeps stays below)
    exact (floodRound_longer ascending).resolve_right (Nat.not_lt.2 (short.trans enough))
  | succ fuel ih =>
    rw [floodFrom]
    split
    next still => exact still
    next grew =>
      have longer := (floodRound_longer (profile := profile) (segments := segments) ascending).resolve_left grew
      exact ih (floodRound_ascending ascending) (floodRound_keeps stays below) (by omega)

end

theorem sortNat_ascending (l : List Nat) : (sortNat l).Pairwise (· < ·) := by
  induction l with
  | nil => exact .nil
  | cons n l ih => exact insertNat_ascending ih

theorem mem_floodSources (wg : Graph) (n : Nat) : n ∈ floodSources wg ↔ ∃ a : Addr, wg.homes[a] = some n := by
  rw [← isHome_iff]
  simp [floodSources, mem_sortNat, isHome]

/-- A flood marks exactly the nodes that permitted moves reach from a home (R68). -/
theorem mem_flood_iff {wg : Graph} {profile : Profile} (homes : ∀ (a : Addr) (n : Nat), wg.homes[a] = some n → n < 2048)
    (ends : ∀ x ∈ wg.segments, x.2.endA < 2048 ∧ x.2.endB < 2048) (sorted : TableSorted wg.segments) (n : Nat) :
    n ∈ flood profile wg ↔ Reached wg profile n := by
  constructor
  · refine floodFrom_keeps (fun p mem q m reached moves => ?_) _ (fun m mem => ?_) n
    · exact .move q m p.1 p.2 reached (tableGet_of_mem sorted mem) moves
    · obtain ⟨a, home⟩ := (mem_floodSources wg m).1 mem
      exact .home a m home
  · intro reached
    induction reached with
    | home a n home => exact subset_floodFrom _ ((mem_floodSources wg n).2 ⟨a, home⟩)
    | move p q n g _ segment moves ih =>
      have closed : floodRound profile wg.segments (flood profile wg) = flood profile wg :=
        floodRound_floodFrom (n := 2048) ends _ (sortNat_ascending _)
          (fun m mem => by obtain ⟨a, home⟩ := (mem_floodSources wg m).1 mem; exact homes a m home)
          (by simp [nodeCapacity])
      rw [← closed]
      exact floodRound_covers (mem_of_tableGet segment) ih moves

/-- Settles O41: the marks are those of the two floods. -/
theorem reachIsReachability : Obligations.ReachIsReachability := by
  intro s run validating floods homes ends sorted
  have reach : ∀ profile n, n ∈ flood profile s.wg ↔ Reached s.wg profile n := fun profile n =>
    mem_flood_iff homes ends sorted n
  have listing : ∀ n, tableGet (floodStep s).ds.listings n =
      (tableGet s.ds.listings n).map (markReach (flood .standard s.wg) (flood .stepFree s.wg)) :=
    tableGet_map (fun _ => markReach (flood .standard s.wg) (flood .stepFree s.wg)) s.ds.listings
  refine ⟨floodStep s, live_whenever (p := fun s => s.ec.turn = .validating ∧ s.ec.work.validation = .floods) run
    ⟨validating, floods⟩, fun n l found => ?_, fun n free => ?_, rfl, ?_, rfl, rfl, rfl, validating, rfl, rfl, rfl, rfl,
    rfl, rfl, rfl, rfl, rfl, rfl, rfl⟩
  · refine ⟨markReach (flood .standard s.wg) (flood .stepFree s.wg) l, ?_, ?_, ?_, rfl, rfl⟩
    · rw [listing, found, Option.map_some]
    · simp [markReach, reach]
    · simp [markReach, reach]
  · rw [listing, free, Option.map_none]
  · show s.ec.work.groups ||| (if (floodStep s).ds.listings = s.ds.listings then 0 else groupBit 8) = _
    split <;> simp

end Sys2Proof.Proofs
end

section
/-! PROOF. The rotations of a trunk and what the part sends in a frame (R160 to R166, R168, R173). -/

namespace Sys2Proof.Proofs
open Sys2Proof.Machine Sys2Proof.Safety Sys2Proof.Laws

/-! ### Rotations (R163) -/

/-- The place of a station in the rotation after a pointer. -/
theorem distance_rotation (after i : StationNo) : ((after + 1 + i).val + 15 - after.val) % 16 = i.val := by
  simp only [Fin.val_add]
  have := after.isLt
  have := i.isLt
  have : (1 : Fin 16).val = 1 := rfl
  omega

theorem exists_rotation (after n : StationNo) : ∃ i : StationNo, n = after + 1 + i :=
  ⟨n - (after + 1), by rw [add_sub_cancel]⟩

theorem firstAfter_eq_none_iff (after : StationNo) (test : StationNo → Bool) :
    firstAfter after test = none ↔ ∀ n, test n = false := by
  simp only [firstAfter, Machine.rotation, List.find?_eq_none, List.mem_map, List.mem_finRange, true_and,
    forall_exists_index, forall_apply_eq_imp_iff, Bool.not_eq_true]
  refine ⟨fun h n => ?_, fun h i => h _⟩
  obtain ⟨i, rfl⟩ := exists_rotation after n
  exact h i

theorem firstAfter_some {after : StationNo} {test : StationNo → Bool} {n : StationNo}
    (first : firstAfter after test = some n) : test n = true
      ∧ ∀ m, test m = true → (n.val + 15 - after.val) % 16 ≤ (m.val + 15 - after.val) % 16 := by
  obtain ⟨passes, i, inside, at_i, before⟩ := List.find?_eq_some_iff_getElem.1 first
  refine ⟨passes, fun m later => ?_⟩
  obtain ⟨j, rfl⟩ := exists_rotation after m
  have n_eq : n = after + 1 + ⟨i, by simpa [Machine.rotation] using inside⟩ := at_i.symm.trans (by simp [Machine.rotation])
  rw [n_eq, distance_rotation, distance_rotation]
  by_contra earlier
  have fails := before j (by simpa using earlier)
  simp [Machine.rotation, later] at fails

/-- Settles O43, by the place of each station in the rotation. -/
theorem rotationFindsFirst : Obligations.RotationFindsFirst :=
  fun after test => ⟨firstAfter_eq_none_iff after test, fun _ first => firstAfter_some first⟩

/-! ### The start of a frame -/

/-- Settles O44, from what a frame start does to its trunk and to each station. -/
theorem frameBegins : Obligations.FrameBegins := by
  intro k s run idle
  have trunk : trunkAt (startFrame k s) k = beginFrame s (((trunkAt s k).frame + 1) % 4096) (trunkAt s k) :=
    (trunkAt_mapStations _ _ _).trans (trunkAt_updateTrunk_same _ _ _)
  have station : ∀ a, stationAt (startFrame k s) a =
      if trunkOf a = k then frameTick (stationAt s a) else stationAt s a := fun a => stationAt_mapStations _ _ a
  refine ⟨startFrame k s, live_whenever (p := fun s => (trunkAt s k).exchange = none) (f := startFrame k) run idle, trunk,
    fun a same => by rw [station, if_pos same]; rfl, fun a other => by rw [station, if_neg other], fun u other =>
      trunkAt_updateTrunk_other _ _ other, ⟨rfl, rfl, rfl, rfl, rfl, rfl, rfl, rfl⟩, rfl, rfl, rfl, rfl, rfl, rfl⟩

/-! ### NOTICE -/

/-- Settles O45. -/
theorem noticeSent : Obligations.NoticeSent := by
  intro k n s run first part idle fits
  have target : noticeTarget s k = some n := by
    refine Eq.trans (congrArg (firstAfter _) (funext fun m => ?_)) first
    rw [Bool.eq_iff_iff]
    simp [eligible, trunkStation, and_assoc]
  have sent : exec (.notice k) s = .next (sendNotice k n s) := by
    show execNotice k s = _
    simp [execNotice, live, run, target, whenever, noticeFits, part, idle, fits, linkMicros, messageBits]
  refine ⟨sendNotice k n s, sent, ?_, ?_, fun b other => ?_, fun u other => ?_, ⟨rfl, rfl, rfl, rfl, rfl, rfl, rfl, rfl⟩,
    rfl, rfl, rfl, rfl, rfl, rfl⟩
  · exact (trunkAt_updateStation _ _ _ k).trans (trunkAt_updateTrunk_same _ _ _)
  · exact stationAt_updateStation_same _ _ _
  · exact stationAt_updateStation_other _ _ other
  · exact (trunkAt_updateStation _ _ _ u).trans (trunkAt_updateTrunk_other _ _ other)

/-! ### The management exchange -/

/-- Settles O47, by whether a station of the trunk is ATTACHED. -/
theorem managementExchanges : Obligations.ManagementExchanges := by
  refine ⟨fun k n s run first turn fits => ?_, fun k n s run nobody first turn fits => ?_⟩
  · have attached : (stationAt s (addrOf k n)).state = .attached := by simpa using (firstAfter_some first).1
    have target : resetTarget s k = some n := by
      refine Eq.trans (congrArg (firstAfter _) (funext fun m => ?_)) first
      rw [Bool.eq_iff_iff]
      simp [trunkStation]
    have sent : exec (.stationReset k) s = .next (sendReset k n s) := by
      show execStationReset k s = _
      simp [execStationReset, live, run, target, whenever, turn, messageBits, fits]
    have other_state : (stationAt s (addrOf k n)).state ≠ .resetting := by simp [attached]
    have station : ∀ b, stationAt (sendReset k n s) b = if b = addrOf k n
        then { stationAt s (addrOf k n) with state := .resetting, countdown := 4, changed := true } else stationAt s b :=
      fun b => by
        rw [sendReset, stationAt_changeState]
        by_cases same : b = addrOf k n
        · subst same; simp [attached]
        · simp [same, stationAt_updateStation_other]
    have trunk : ∀ u, trunkAt (sendReset k n s) u = trunkAt (updateTrunk k (fun k' =>
        { k' with elapsed := pollFrom k' + linkMicros k' (messageBits 0), part := .finished, resetPtr := n,
                  sent := .stationReset n }) s) u := fun u => by simp [sendReset]
    have kept : (trunkAt (sendReset k n s) k).exchange = none := by
      have idle : (trunkAt s k).exchange = none := by
        simp only [managementTurn, Bool.and_eq_true, Option.isNone_iff_eq_none] at turn
        exact turn.1.1
      simpa [trunk] using idle
    refine ⟨sendReset k n s, sent, by rw [station, if_pos rfl], by simp [trunk], by simp [trunk], kept, by simp [trunk],
      by simp [trunk], by simp [trunk], by simp [trunk], ?_, fun b other => by rw [station, if_neg other], fun u other =>
        (trunk u).trans (trunkAt_updateTrunk_other _ _ other), ?_, ?_, ?_, ?_, ?_, ?_⟩
    · rw [sendReset, changeState_new _ (by simp [attached])]
      rfl
    all_goals simp [sendReset, sameRecords]
  · have target : probeTarget s k = some n := by
      have none_attached : anyStation s k (fun st => st.state == .attached) = false := by
        simpa [anyStation, trunkStation] using nobody
      rw [probeTarget, none_attached]
      refine Eq.trans (congrArg (firstAfter _) (funext fun m => ?_)) first
      rw [Bool.eq_iff_iff]
      simp [trunkStation]
    have sent : exec (.probe k) s = .next (sendProbe k n s) := by
      show execProbe k s = _
      simp [execProbe, live, run, target, whenever, turn, fits]
    have trunk := trunkAt_updateTrunk_same (s := s) k (fun k' =>
      { k' with elapsed := pollFrom k' + linkMicros k' (messageBits 0), part := .finished, probePtr := n,
                exchange := some { station := addrOf k n, probe := true, void := false }, sent := .probe n })
    refine ⟨sendProbe k n s, sent, ?_, ?_, ?_, ?_, ?_, ?_, ?_, fun _ => rfl, fun u other => trunkAt_updateTrunk_other _ _ other,
      ⟨rfl, rfl, rfl, rfl, rfl, rfl, rfl, rfl⟩, rfl, rfl, rfl, rfl, rfl, rfl⟩
    all_goals rw [sendProbe, trunk]

end Sys2Proof.Proofs
end

section
/-! PROOF. The POLL, and what a reply or its absence does to the station that was polled or probed (R163 to R170). -/

namespace Sys2Proof.Proofs
open Sys2Proof.Machine Sys2Proof.Safety Sys2Proof.Laws

/-! ### The message of a POLL (R164) -/

section
variable {st : Station}

theorem carriedSlot_eq (st : Station) : carriedSlot st =
    (st.queue.find? fun x => x.inFlight).or (st.queue.find? fun x => x.content.isSome) := by
  unfold carriedSlot
  split
  next flying => rw [flying, Option.some_or]
  next still => rw [still, Option.none_or]

theorem markCarried_none (nothing : carriedSlot st = none) : markCarried st = st := by
  unfold markCarried
  rw [nothing]

theorem markCarried_some {c : Slot} (carried : carriedSlot st = some c) : markCarried st =
    { st with queue := st.queue.map fun x => if x.place = c.place then { x with inFlight := true } else x } := by
  unfold markCarried
  rw [carried]

theorem mem_markCarried {c : Slot} (h : SlotsInv st) (carried : carriedSlot st = some c) :
    { c with inFlight := true } ∈ (markCarried st).queue := by
  obtain ⟨mem, -, -⟩ := carriedSlot_spec h carried
  rw [markCarried_some carried]
  exact List.mem_map.2 ⟨c, mem, by rw [if_pos rfl]⟩

/-- The slot that a POLL carries is the only one in flight after it. -/
theorem inFlight_markCarried {c : Slot} (h : SlotsInv st) (carried : carriedSlot st = some c) {y : Slot}
    (mem : y ∈ (markCarried st).queue) (flying : y.inFlight = true) : y = { c with inFlight := true } :=
  eq_of_length_le_one ((stationKept_markCarried st).slots h).single (List.mem_filter.2 ⟨mem, flying⟩)
    (List.mem_filter.2 ⟨mem_markCarried h carried, rfl⟩)

theorem carriedSlot_markCarried {c : Slot} (h : SlotsInv st) (carried : carriedSlot st = some c) :
    carriedSlot (markCarried st) = some { c with inFlight := true } := by
  rw [carriedSlot_eq]
  have found : ((markCarried st).queue.find? fun x => x.inFlight).isSome := by
    rw [List.find?_isSome]
    exact ⟨_, mem_markCarried h carried, rfl⟩
  obtain ⟨y, hy⟩ := Option.isSome_iff_exists.1 found
  rw [hy, Option.some_or, inFlight_markCarried h carried (List.mem_of_find?_eq_some hy) (List.find?_some hy)]

theorem carriedMessage_markCarried (h : SlotsInv st) :
    carriedMessage (markCarried st) = (carriedSlot st).bind fun x => x.content := by
  cases carried : carriedSlot st with
  | none => rw [markCarried_none carried, carriedMessage, carried]
  | some c => rw [carriedMessage, carriedSlot_markCarried h carried]; rfl

/-- The slots free as a POLL gives them: the slot in flight counts as free (R164). -/
theorem slotsFree_markCarried (h : SlotsInv st) :
    slotsFree (markCarried st) = 4 - st.queue.length + if (carriedSlot st).isSome then 1 else 0 := by
  have size := h.size
  have parts := List.length_eq_length_filter_add (l := (markCarried st).queue) fun x => x.inFlight
  cases carried : carriedSlot st with
  | none =>
    rw [markCarried_none carried] at parts ⊢
    rw [carriedSlot_eq, Option.or_eq_none_iff] at carried
    have still : (st.queue.filter fun x => x.inFlight) = [] := by
      simpa [List.filter_eq_nil_iff] using carried.1
    rw [still, List.length_nil] at parts
    simp only [slotsFree, slotCapacity, Option.isSome_none, Bool.false_eq_true, if_false]
    omega
  | some c =>
    have one : 0 < ((markCarried st).queue.filter fun x => x.inFlight).length :=
      List.length_pos_of_mem (List.mem_filter.2 ⟨mem_markCarried h carried, rfl⟩)
    have most := ((stationKept_markCarried st).slots h).single
    have same : (markCarried st).queue.length = st.queue.length := by rw [markCarried_some carried]; simp
    simp only [slotsFree, slotCapacity, Option.isSome_some, if_true]
    omega

end

/-- Settles O46, from the slot carried. -/
theorem pollSent : Obligations.PollSent := by
  intro k n s run queues first fits
  have slots := queues.slots (addrOf k n)
  have target : pollTarget s k = some n := by
    refine Eq.trans (congrArg (firstAfter _) (funext fun m => ?_)) first
    rw [Bool.eq_iff_iff]
    simp only [pollable, trunkStation]
    cases (stationAt s (addrOf k m)).state <;> simp
  have sent : exec (.poll k) s = .next (sendPoll k n s) := by
    show execPoll k s = _
    simp [execPoll, live, run, pollNow, target, fits]
  have trunk : ∀ u, trunkAt (sendPoll k n s) u = trunkAt (updateTrunk k (fun k' =>
      { k' with elapsed := pollFrom k' + linkMicros k' (messageBits (carriedLength (markCarried (trunkStation s k n)) + 1))
                part := .polls, pollPtr := n
                exchange := some { station := addrOf k n, probe := false, void := false }
                sent := .poll n (markCarried (trunkStation s k n)).delivery (slotsFree (markCarried (trunkStation s k n)))
                  (carriedMessage (markCarried (trunkStation s k n))) }) s) u := fun u => by simp [sendPoll]
  have delivery : (markCarried (trunkStation s k n)).delivery = (stationAt s (addrOf k n)).delivery := by
    unfold markCarried; split <;> rfl
  have station : stationAt (sendPoll k n s) (addrOf k n) = markCarried (stationAt s (addrOf k n)) := by
    simp [sendPoll, trunkStation]
  refine ⟨sendPoll k n s, sent, ⟨by simp [trunk], by simp [trunk], by simp [driverEnabled, run],
    by simp [driverEnabled, trunk], ⟨slotsFree (markCarried (trunkStation s k n)), ?_, ?_⟩, fun nothing => ?_, fun c carried => ?_⟩, by simp [trunk], by simp [trunk],
    by simp [trunk], by simp [trunk], by simp [trunk], fun b other => ?_, fun u other =>
      (trunk u).trans (trunkAt_updateTrunk_other _ _ other), ?_, ?_, ?_, ?_, ?_, ?_, ?_⟩
  · rw [trunk, trunkAt_updateTrunk_same, delivery, trunkStation, carriedMessage_markCarried slots, carriedSlot_eq]
  · rw [trunkStation, slotsFree_markCarried slots, carriedSlot_eq]
  · rw [station, markCarried_none ((carriedSlot_eq _).trans nothing)]
  · rw [station, markCarried_some ((carriedSlot_eq _).trans carried)]
  · exact stationAt_putStation_other _ _ other
  all_goals simp [sendPoll, sameRecords]

end Sys2Proof.Proofs
end

section
/-! PROOF. Replies of a station: acknowledgment, misses, and the passages that bring a station into service (R164 to
R170). -/

namespace Sys2Proof.Proofs
open Sys2Proof.Machine Sys2Proof.Safety Sys2Proof.Laws

/-! ### The end of an exchange -/

/-- The part at the end of an exchange, with the record of one station changed by `g`. -/
theorem ended_updated (k : TrunkNo) (bits : Nat) (a : Addr) (g : Station → Station) (s : State) :
    stationAt (updateStation a g (endExchange k bits s)) a = g (stationAt s a)
    ∧ (trunkAt (updateStation a g (endExchange k bits s)) k).exchange = none
    ∧ sameStationsBut a s (updateStation a g (endExchange k bits s))
    ∧ sameTrunksBut k s (updateStation a g (endExchange k bits s))
    ∧ sameRecords s (updateStation a g (endExchange k bits s)) := by
  refine ⟨stationAt_updateStation_same _ _ _, ?_, fun b other => stationAt_updateStation_other _ _ other,
    fun u other => (trunkAt_updateStation _ _ _ u).trans (trunkAt_endExchange_other s k bits other),
    ⟨rfl, rfl, rfl, rfl, rfl, rfl, rfl, rfl⟩⟩
  rw [trunkAt_updateStation, endExchange, trunkAt_updateTrunk_same]

/-- A change of state in one station at the end of an exchange, as one update. -/
theorem changeState_updated {a : Addr} {new : StationState} {f : Station → Station} {u : State}
    (kept : (f (stationAt u a)).state = (stationAt u a).state) (other : (stationAt u a).state ≠ new) :
    changeState a new (updateStation a f u) =
      raiseFlag stationChange (updateStation a (fun st => { f st with state := new, changed := true }) u) := by
  rw [changeState_new _ (by rw [stationAt_updateStation_same, kept]; exact other), updateStation_updateStation]

/-! ### What a reply leads to -/

theorem takeContent_ends {k : TrunkNo} {x : Exchange} {s : State} (exchange : (trunkAt s k).exchange = some x) (d : Nat)
    (r : StationReply) : ∃ bits content, takeContent k d r s = endWith k x bits content s ∧ (content = none ∨ content = some r) := by
  by_cases late : windowBits < d
  · exact ⟨windowBits, none, by simp [takeContent, takeReply, late, closeWindow, exchange], .inl rfl⟩
  · by_cases fits : replyFits r = true
    · exact ⟨_, some r, by simp [takeContent, takeReply, late, exchange, fits]; rfl, .inr rfl⟩
    · exact ⟨_, none, by simp [takeContent, takeReply, late, exchange, fits]; rfl, .inl rfl⟩

theorem closeWindow_ends {k : TrunkNo} {x : Exchange} {s : State} (exchange : (trunkAt s k).exchange = some x) :
    closeWindow k s = endWith k x windowBits none s := by
  simp [closeWindow, exchange]

theorem takeBytes_ends {k : TrunkNo} {x : Exchange} {s : State} (exchange : (trunkAt s k).exchange = some x) (d : Nat)
    (m : List Byte) : ∃ bits content, takeBytes k d m s = endWith k x bits content s
      ∧ (content = none ∨ content = goodReply (stationOf x.station) m) := by
  unfold takeBytes
  split
  · by_cases late : windowBits < d
    · exact ⟨windowBits, none, by rw [takeReply, if_pos late, closeWindow_ends exchange], .inl rfl⟩
    · exact ⟨d + 10 * m.length, goodReply (stationOf x.station) m, by simp [takeReply, late, exchange], .inr rfl⟩
  · exact ⟨windowBits, none, closeWindow_ends exchange, .inl rfl⟩

/-- Every reply ends the exchange, with a content that is the reply's own when it is good and comes in time (R165). -/
theorem replies_end {k : TrunkNo} {c : Instr} {x : Exchange} {s : State} (run : s.resetHeld = false)
    (exchange : (trunkAt s k).exchange = some x) (replies : RepliesOn k c) :
    ∃ bits content, exec c s = .next (endWith k x bits content s)
      ∧ (content = none ∨ ∃ r, content = some r ∧ c ≠ .replyWindowClose k
        ∧ (∀ d m, c = .badReply k d m → goodReply (stationOf x.station) m = some r)
        ∧ (r = .ready → (∃ d, c = .readyReply k d) ∨ (∃ d r, c = .probeReply k d r) ∨ ∃ d m, c = .badReply k d m)) := by
  have taken : ∀ (d : Nat) (r : StationReply), exec c s = live (takeContent k d r) s → c ≠ .replyWindowClose k →
      (∀ d m, c ≠ .badReply k d m) → (r = .ready → (∃ d, c = .readyReply k d) ∨ ∃ d r, c = .probeReply k d r) →
      ∃ bits content, exec c s = .next (endWith k x bits content s)
      ∧ (content = none ∨ ∃ r, content = some r ∧ c ≠ .replyWindowClose k
        ∧ (∀ d m, c = .badReply k d m → goodReply (stationOf x.station) m = some r)
        ∧ (r = .ready → (∃ d, c = .readyReply k d) ∨ (∃ d r, c = .probeReply k d r) ∨ ∃ d m, c = .badReply k d m)) :=
    fun d r meaning window bad ready => by
      obtain ⟨bits, content, ends, cases⟩ := takeContent_ends exchange d r
      refine ⟨bits, content, by rw [meaning, live_running _ run, ends], cases.imp_right fun good =>
        ⟨r, good, window, fun d m h => absurd h (bad d m), fun h => (ready h).imp_right .inl⟩⟩
  cases replies with
  | window =>
    exact ⟨_, none, (live_running (closeWindow k) run).trans (congrArg _ (closeWindow_ends exchange)), .inl rfl⟩
  | bad d m =>
    obtain ⟨bits, content, ends, cases⟩ := takeBytes_ends exchange d m
    refine ⟨bits, content, (live_running (takeBytes k d m) run).trans (congrArg _ ends), ?_⟩
    rcases cases with rfl | good
    · exact .inl rfl
    · cases content with
      | none => exact .inl rfl
      | some r =>
        refine .inr ⟨r, rfl, by simp, fun d' m' h => ?_, fun _ => .inr (.inr ⟨d, m, rfl⟩)⟩
        cases h
        exact good.symm
  | empty d => exact taken d .empty rfl (by simp) (by simp) (by simp)
  | ready d => exact taken d .ready rfl (by simp) (by simp) fun _ => .inl ⟨d, rfl⟩
  | probe d r => exact taken d r rfl (by simp) (by simp) fun _ => .inr ⟨d, r, rfl⟩
  | find d tag p => exact taken d (requestOf .find tag p) rfl (by simp) (by simp) (by simp [requestOf])
  | browse d tag p => exact taken d (requestOf .browse tag p) rfl (by simp) (by simp) (by simp [requestOf])
  | route d tag p => exact taken d (requestOf .route tag p) rfl (by simp) (by simp) (by simp [requestOf])
  | page d tag p => exact taken d (requestOf .page tag p) rfl (by simp) (by simp) (by simp [requestOf])
  | cancel d tag p => exact taken d (requestOf .cancel tag p) rfl (by simp) (by simp) (by simp [requestOf])
  | release d tag p => exact taken d (requestOf .release tag p) rfl (by simp) (by simp) (by simp [requestOf])
  | seen d tag p => exact taken d (requestOf .seen tag p) rfl (by simp) (by simp) (by simp [requestOf])
  | sleep d tag p => exact taken d (requestOf .sleep tag p) rfl (by simp) (by simp) (by simp [requestOf])
  | wake d tag p => exact taken d (requestOf .wake tag p) rfl (by simp) (by simp) (by simp [requestOf])

/-! ### Into service (R166, R168) -/

theorem takeContent_probe {k : TrunkNo} {d : Nat} {x : Exchange} {r : StationReply} {s : State} (inTime : d ≤ 64)
    (fits : replyFits r = true) (exchange : (trunkAt s k).exchange = some x) (stands : x.void = false)
    (probe : x.probe = true) :
    ∃ bits, takeContent k d r s = probeAnswered x.station (endExchange k bits s) := by
  have inWindow : ¬64 < d := by omega
  exact ⟨_, by simp [takeContent, takeReply, windowBits, inWindow, exchange, endWith, stands, probe, fits]; rfl⟩

/-- Settles O48, one passage after another. -/
theorem stationsComeIntoService : Obligations.StationsComeIntoService := by
  refine ⟨fun k d r x s run inTime fits exchange _ stands probe state => ?_,
    fun k d x s run inTime exchange trunk stands probe resetting counting => ?_,
    fun k d x s run inTime exchange trunk stands probe service => ?_, fun a s run resetting zero => ?_⟩
  · obtain ⟨bits, takes⟩ := takeContent_probe inTime fits exchange stands probe
    have answered : probeAnswered x.station (endExchange k bits s) =
        raiseFlag stationChange (updateStation x.station (fun st => { st with state := .attached, changed := true })
          (endExchange k bits s)) := by
      rw [← changeState_new _ (by rw [stationAt_endExchange]; rcases state with state | state <;> simp [state])]
      unfold probeAnswered
      rcases state with state | state <;> rw [stationAt_endExchange, state]
    obtain ⟨station, ended, stations, trunks, records⟩ := ended_updated k bits x.station
      (fun st => { st with state := .attached, changed := true }) s
    refine ⟨_, (live_running (takeContent k d r) run).trans (congrArg _ (takes.trans answered)), station, ended, ?_, stations, trunks,
      records, rfl⟩
    rfl
  · have takes := takeContent_poll s ⟨run, inTime, exchange, trunk, stands, probe⟩ (r := .ready) rfl
    generalize d + 10 * (encodeReply 0 .ready).length = bits at takes
    have enables : pollReply x.station .ready (endExchange k bits s) =
        raiseFlag stationChange (updateStation x.station
          (fun st => { enabledRecord st with state := .enabled, changed := true }) (endExchange k bits s)) := by
      rw [← changeState_updated (f := enabledRecord) rfl (by rw [stationAt_endExchange, resetting]; simp)]
      unfold pollReply
      rw [stationAt_endExchange, resetting]
      dsimp only [enableStation]
      rw [stationAt_endExchange, if_pos counting]
    obtain ⟨station, ended, stations, trunks, records⟩ := ended_updated k bits x.station
      (fun st => { enabledRecord st with state := .enabled, changed := true }) s
    exact ⟨_, (live_running (takeContent k d .ready) run).trans (congrArg _ (takes.trans enables)), station, ended, rfl, stations,
      trunks, records, rfl⟩
  · have takes := takeContent_poll s ⟨run, inTime, exchange, trunk, stands, probe⟩ (r := .ready) rfl
    generalize d + 10 * (encodeReply 0 .ready).length = bits at takes
    have service' : inService (stationAt (endExchange k bits s) x.station) = true := service
    have departs : pollReply x.station .ready (endExchange k bits s) = depart x.station .attached (endExchange k bits s) := by
      unfold pollReply
      rcases (inService_iff _).1 service with state | state <;> rw [stationAt_endExchange, state]
    have other : (stationAt (endExchange k bits s) x.station).state ≠ .attached := by
      rcases (inService_iff _).1 service with state | state <;> simp [state]
    rw [depart_inService service' other] at departs
    obtain ⟨station, ended, stations, trunks, records⟩ := ended_updated k bits x.station
      (fun st => { leftRecord st with state := .attached, changed := true }) s
    exact ⟨_, (live_running (takeContent k d .ready) run).trans (congrArg _ (takes.trans departs)), station, rfl, ended, rfl, stations,
      trunks, records⟩
  · have fails : exec (.resetCountdownExpiry a) s = .next (failAttempt a s) :=
      live_whenever (p := fun s => (stationAt s a).state = .resetting ∧ (stationAt s a).countdown = 0)
        (f := failAttempt a) run ⟨resetting, zero⟩
    refine ⟨failAttempt a s, fails, ?_⟩
    have other : (stationAt s a).state ≠ .attached ∧ (stationAt s a).state ≠ .faulted := by simp [resetting]
    unfold failAttempt
    by_cases left : (stationAt s a).attempts < 2
    · rw [if_pos left]
      dsimp only
      rw [if_pos (by omega), changeState_updated rfl other.1]
      exact ⟨by simp, rfl, fun b hb => by rw [stationAt_raiseFlag, stationAt_updateStation_other _ _ hb],
        ⟨rfl, rfl, rfl, rfl, rfl, rfl, rfl, rfl⟩, rfl, rfl⟩
    · rw [if_neg left]
      dsimp only
      rw [if_neg (by omega), changeState_updated rfl other.2]
      exact ⟨by simp, rfl, fun b hb => by rw [stationAt_raiseFlag, stationAt_updateStation_other _ _ hb],
        ⟨rfl, rfl, rfl, rfl, rfl, rfl, rfl, rfl⟩, rfl, rfl⟩

end Sys2Proof.Proofs
end

section
/-! PROOF. Acknowledgment and misses (R165), and SEEN, SLEEP and WAKE (R169, R174). -/

namespace Sys2Proof.Proofs
open Sys2Proof.Machine Sys2Proof.Safety Sys2Proof.Laws

/-! ### Misses -/

/-- A bad reply, or none, ends its exchange without a content. -/
theorem missed_ends {k : TrunkNo} {c : Instr} {x : Exchange} {s : State} (run : s.resetHeld = false)
    (exchange : (trunkAt s k).exchange = some x)
    (missed : c = .replyWindowClose k ∨ ∃ d m, c = .badReply k d m ∧ goodReply (stationOf x.station) m = none) :
    ∃ bits, exec c s = .next (endWith k x bits none s) := by
  have replies : RepliesOn k c := by
    rcases missed with rfl | ⟨d, m, rfl, -⟩
    · exact .window
    · exact .bad d m
  obtain ⟨bits, content, ends, rfl | ⟨r, rfl, notWindow, reads, -⟩⟩ := replies_end run exchange replies
  · exact ⟨bits, ends⟩
  · rcases missed with rfl | ⟨d, m, rfl, bad⟩
    · exact absurd rfl notWindow
    · exact absurd ((reads d m rfl).symm.trans bad) (by simp)

theorem endWith_miss {k : TrunkNo} {x : Exchange} (bits : Nat) {s : State} (stands : x.void = false)
    (poll : x.probe = false) : endWith k x bits none s =
      miss (trunkAt s k).settings.faultLimit x.station (endExchange k bits s) := by
  simp [endWith, stands, poll]

/-- An exchange ends and nothing else changes but its trunk. -/
theorem ended_only (k : TrunkNo) (bits : Nat) (s : State) :
    (trunkAt (endExchange k bits s) k).exchange = none ∧ (∀ a, stationAt (endExchange k bits s) a = stationAt s a)
    ∧ sameTrunksBut k s (endExchange k bits s) ∧ sameRecords s (endExchange k bits s)
    ∧ (endExchange k bits s).ec = s.ec ∧ (endExchange k bits s).qt = s.qt ∧ (endExchange k bits s).re = s.re
    ∧ (endExchange k bits s).fe = s.fe ∧ (endExchange k bits s).eu = s.eu ∧ (endExchange k bits s).ep = s.ep :=
  ⟨by rw [endExchange, trunkAt_updateTrunk_same], fun _ => rfl, fun _ other => trunkAt_endExchange_other s k bits other,
    ⟨rfl, rfl, rfl, rfl, rfl, rfl, rfl, rfl⟩, rfl, rfl, rfl, rfl, rfl, rfl⟩

theorem miss_outOfService {limit : Nat} {a : Addr} {u : State} (out : inService (stationAt u a) = false) :
    miss limit a u = u := by
  rw [miss, if_neg (by simp [out])]

theorem miss_counted {limit : Nat} {a : Addr} {u : State} (service : inService (stationAt u a) = true)
    (below : (stationAt u a).misses + 1 < limit) :
    miss limit a u = updateStation a (fun st => { st with misses := st.misses + 1 }) u := by
  rw [miss, if_pos service]
  exact if_neg (by omega)

theorem miss_faults {limit : Nat} {a : Addr} {u : State} (service : inService (stationAt u a) = true)
    (reached : limit ≤ (stationAt u a).misses + 1) :
    miss limit a u = raiseFlag stationChange
      (updateStation a (fun st => { leftRecord st with state := .faulted, changed := true })
        { u with qt := { entries := afterLeaving (fun b => b == a) u.qt.entries } }) := by
  have service' : inService (stationAt (updateStation a (fun st => { st with misses := st.misses + 1 }) u) a) = true := by
    rw [stationAt_updateStation_same]; exact service
  have other : (stationAt (updateStation a (fun st => { st with misses := st.misses + 1 }) u) a).state ≠ .faulted := by
    rw [stationAt_updateStation_same]
    rcases (inService_iff _).1 service with state | state <;> simp [state]
  rw [miss, if_pos service]
  refine (if_pos reached).trans ?_
  rw [depart_inService service' other]
  exact congrArg (raiseFlag stationChange) (updateStation_updateStation a (fun st => { st with misses := st.misses + 1 })
    (fun st => { leftRecord st with state := .faulted, changed := true })
    { u with qt := { entries := afterLeaving (fun b => b == a) u.qt.entries } })

/-- Settles O49, by what the reply is and by the state of its station. -/
theorem repliesAcknowledgeOrMiss : Obligations.RepliesAcknowledgeOrMiss := by
  refine ⟨fun k x s run exchange trunk stands poll => ⟨fun service => ⟨fun d inTime => ?_, fun c missed => ?_⟩,
    fun resetting => ?_⟩, fun k c x s run exchange replies ignored => ?_⟩
  · have takes := takeContent_poll s ⟨run, inTime, exchange, trunk, stands, poll⟩ (r := .empty) rfl
    generalize d + 10 * (encodeReply 0 .empty).length = bits at takes
    have acknowledges : pollReply x.station .empty (endExchange k bits s) =
        updateStation x.station acknowledge (endExchange k bits s) := by
      unfold pollReply
      rcases (inService_iff _).1 service with state | state <;> rw [stationAt_endExchange, state]
    obtain ⟨station, ended, stations, trunks, records⟩ := ended_updated k bits x.station acknowledge s
    refine ⟨_, (live_running (takeContent k d .empty) run).trans (congrArg _ (takes.trans acknowledges)), ?_, ended, stations,
      trunks, records, rfl, rfl⟩
    rw [station]
    simp [acknowledge]
  · obtain ⟨bits, ends⟩ := missed_ends run exchange
      (missed.imp_right fun ⟨d, m, _, rest⟩ => ⟨d, m, rest⟩)
    rw [endWith_miss bits stands poll] at ends
    have service' : inService (stationAt (endExchange k bits s) x.station) = true := service
    by_cases below : (stationAt s x.station).misses + 1 < (trunkAt s k).settings.faultLimit
    · rw [miss_counted service' below] at ends
      obtain ⟨station, ended, stations, trunks, records⟩ :=
        ended_updated k bits x.station (fun st => { st with misses := st.misses + 1 }) s
      exact ⟨_, ends, ended, fun _ => ⟨station, rfl, rfl⟩, fun reached => absurd below (Nat.not_lt.2 reached), stations, trunks,
        records⟩
    · rw [miss_faults service' (Nat.not_lt.1 below)] at ends
      obtain ⟨station, ended, stations, trunks, records⟩ :=
        ended_updated k bits x.station (fun st => { leftRecord st with state := .faulted, changed := true }) s
      exact ⟨_, ends, ended, fun h => absurd h below, fun _ => ⟨station, rfl, rfl⟩, stations, trunks, records⟩
  · obtain ⟨bits, ends⟩ := missed_ends run exchange (.inl rfl)
    have out : inService (stationAt (endExchange k bits s) x.station) = false := by
      rw [stationAt_endExchange]
      simp [inService, resetting]
    rw [endWith_miss bits stands poll, miss_outOfService out] at ends
    obtain ⟨ended, stations, -, -, -, qt, -, -, -, ep⟩ := ended_only k bits s
    exact ⟨_, ends, ended, stations, qt, ep⟩
  · obtain ⟨bits, content, ends, read⟩ := replies_end run exchange replies
    have nothing : endWith k x bits content s = endExchange k bits s := by
      rcases ignored with void | ⟨stands, probe, missed⟩ | ⟨stands, poll, resetting, notReady, notProbe, notGood⟩
      · simp [endWith, void]
      · obtain rfl | ⟨r, rfl, notWindow, reads, -⟩ := read
        · simp [endWith, stands, probe]
        · rcases missed with rfl | ⟨d, m, rfl, bad⟩
          · exact absurd rfl notWindow
          · exact absurd ((reads d m rfl).symm.trans bad) (by simp)
      · have state : (stationAt (endExchange k bits s) x.station).state = .resetting := resetting
        obtain rfl | ⟨r, rfl, -, reads, ready⟩ := read
        · rw [endWith_miss bits stands poll]
          exact miss_outOfService (by rw [inService, state]; rfl)
        · have other : r ≠ .ready := fun h => by
            rcases ready h with ⟨d, hc⟩ | ⟨d, r, hc⟩ | ⟨d, m, hc⟩
            · exact notReady d hc
            · exact notProbe d r hc
            · exact notGood d m hc ((reads d m hc).trans (congrArg _ h))
          have polls : endWith k x bits (some r) s = pollReply x.station r (endExchange k bits s) := by
            simp [endWith, stands, poll]
          rw [polls]
          unfold pollReply
          rw [state]
          cases r with
          | ready => exact absurd rfl other
          | empty | request => rfl
    rw [nothing] at ends
    exact ⟨_, ends, ended_only k bits s⟩

/-! ### SEEN, SLEEP and WAKE -/

theorem awake_eq (st : Station) : awake st = if (acknowledge st).state = .enabled then acknowledge st
    else { acknowledge st with state := .enabled, changed := true } := rfl

theorem awake_state (st : Station) : (awake st).state = .enabled := by
  rw [awake_eq]
  split
  · assumption
  · rfl

/-- Settles O55: SEEN and WAKE come of an awake station, SLEEP of one that has acknowledged. -/
theorem seenSleepWake : Obligations.SeenSleepWake := by
  intro k d tag x s answers service a st moved
  have woken : ∀ u : State, Roused k a s u → stationAt u a = moved .enabled := fun u roused =>
    roused.station.trans (awake_eq _)
  refine ⟨fun hi lo => ?_, ?_, ?_⟩
  · obtain ⟨v, roused, takes⟩ :=
      exec_request (c := .seenRequest k d tag [hi, lo]) (type := .seen) rfl answers service rfl (by decide)
    have seen : takeRequest a tag .seen [hi, lo] v = updateStation a
        (fun st => { st with pendingMask := st.pendingMask &&& ~~~groupsOf (wordAt [hi, lo] 0) }) v := rfl
    rw [seen] at takes
    refine ⟨_, takes, sameButRequest_of_frame roused.same (requestFrame_updateStation a _ v), ?_, roused.qt, roused.re,
      roused.fe⟩
    refine (stationAt_updateStation_same v a _).trans ?_
    rw [woken v roused]
    have mask : (moved .enabled).pendingMask = st.pendingMask := by
      simp only [moved]
      split <;> rfl
    rw [mask]
    rfl
  · obtain ⟨bits, takes⟩ := takeContent_request s (tag := tag) (type := .sleep) (p := []) answers service rfl
    have sleeps : exec (.sleepRequest k d tag []) s =
        .next (changeState a .dormant (updateStation a acknowledge (endExchange k bits s))) :=
      (live_running (takeContent k d (requestOf .sleep tag [])) answers.1).trans (congrArg _ takes)
    have trunk : (trunkAt (endExchange k bits s) k).exchange = none := (ended_only k bits s).1
    refine ⟨_, sleeps, ⟨fun b hb => ?_, ?_, ?_, ?_, ?_, fun u hu => ?_, ?_⟩, ?_, ?_, ?_, ?_⟩
    · simp [stationAt_changeState, hb, stationAt_updateStation]
    · simp [sameRecords]
    · simp
    · simp
    · by_cases asleep : (stationAt s a).state = .dormant <;> simp [changeState_ep, changeFlag, asleep]
    · simp [trunkAt_endExchange_other s k bits hu]
    · simp [trunk]
    · simp only [stationAt_changeState, stationAt_updateStation_same, stationAt_endExchange, true_and]
      exact ite_not _ _ _
    all_goals simp
  · obtain ⟨v, roused, takes⟩ :=
      exec_request (c := .wakeRequest k d tag []) (type := .wake) rfl answers service rfl (by decide)
    have stays : takeRequest a tag .wake [] v = v := changeState_same v (by rw [roused.station]; exact awake_state _)
    rw [stays] at takes
    exact ⟨v, takes, roused.same, woken v roused, roused.qt, roused.re, roused.fe⟩

end Sys2Proof.Proofs
end

section
/-! PROOF. A reply is read back from its bytes (R165, R198). -/

namespace Sys2Proof.Proofs
open Sys2Proof.Machine Sys2Proof.Safety Sys2Proof.Laws

theorem addressNames_byteOf (n : StationNo) : addressNames n (byteOf n.val) = true := by
  have value : (byteOf n.val).toNat = n.val := by rw [toNat_byteOf]; have := n.isLt; omega
  have other : byteOf n.val ≠ 0xFF := fun h => by
    have := congrArg BitVec.toNat h
    rw [value] at this
    have := n.isLt
    simp at *
    omega
  simp only [addressNames, value, Nat.mod_eq_of_lt n.isLt, decide_true, Bool.and_true, bne_iff_ne]
  exact other

theorem goodReply_empty (n : StationNo) : goodReply n (encodeReply n .empty) = some .empty := by
  have kind : (byteOf 128).toNat = 128 := rfl
  have length : byteOf 0 = 0 := rfl
  simp [encodeReply, frameMessage, goodReply, addressNames_byteOf, be16, kind, length, replyFits]

theorem goodReply_ready (n : StationNo) : goodReply n (encodeReply n .ready) = some .ready := by
  have kind : (byteOf 160).toNat = 160 := rfl
  have length : byteOf 0 = 0 := rfl
  simp [encodeReply, frameMessage, goodReply, addressNames_byteOf, be16, kind, length, replyFits]

theorem goodReply_request (n : StationNo) (tag : Tag) {payload : List Byte} (short : payload.length ≤ 250)
    (fits : replyFits (.request tag payload) = true) :
    goodReply n (encodeReply n (.request tag payload)) = some (.request tag payload) := by
  have kind : (byteOf (16 * 9 + tag.val)).toNat = 144 + tag.val := by rw [toNat_byteOf]; have := tag.isLt; omega
  have length : (byteOf payload.length).toNat = payload.length := by rw [toNat_byteOf]; omega
  have nine : (144 + tag.val) / 16 = 9 := by have := tag.isLt; omega
  have low : (144 + tag.val) % 16 = tag.val := by have := tag.isLt; omega
  simp [encodeReply, frameMessage, goodReply, addressNames_byteOf, kind, length, nine, low, short, be16, fits]

/-- A request that fits its kind leaves room for its type byte in a payload of 250 (R165). -/
theorem length_of_paramsFit {type : RequestType} {params : List Byte} (fits : paramsFit type params = true) :
    params.length ≤ 249 := by
  cases type with
  | find => simp only [paramsFit, Bool.and_eq_true, decide_eq_true_eq] at fits; exact fits.2
  | browse | route | page | cancel | release | seen | sleep | wake =>
    simp only [paramsFit, decide_eq_true_eq] at fits
    omega

/-- Settles O50, by the content of the reply. -/
theorem repliesRoundTrip : Obligations.RepliesRoundTrip := by
  intro n r fits
  cases r with
  | empty => exact goodReply_empty n
  | ready => exact goodReply_ready n
  | request tag payload =>
    refine goodReply_request n tag ?_ fits
    cases payload with
    | nil => simp
    | cons code params =>
      cases type : requestTypeOf code with
      | none => simp [replyFits, type] at fits
      | some type' =>
        have := length_of_paramsFit (type := type') (by simpa [replyFits, type] using fits)
        simp only [List.length_cons]
        omega

end Sys2Proof.Proofs
end

section
/-! PROOF. PAGE and CANCEL (R115, R117, R119, R145, R157, R171). -/

namespace Sys2Proof.Proofs
open Sys2Proof.Machine Sys2Proof.Safety Sys2Proof.Laws

/-! ### The content of a page -/

theorem length_pageSlice {α : Type} (n : Nat) (l : List α) : (pageSlice n l).length = min 8 (l.length - (8 * n - 8)) := by
  rw [pageSlice, List.length_take, List.length_drop, Nat.mul_sub_one]

theorem getElem?_pageSlice {α : Type} {n i : Nat} (l : List α) (inside : i < 8) :
    (pageSlice n l)[i]? = l[8 * n - 8 + i]? := by
  rw [pageSlice, List.getElem?_take_of_lt inside, List.getElem?_drop, Nat.mul_sub_one]

/-! ### The two requests, by what they find -/

section
variable {a : Addr} {tag : Tag} {place : Nat} {w : State}

theorem servePage_absent (n : Nat) (absent : findEntry w.qt a tag = none) :
    servePage a tag n place w = refuseSlot a place tag .noSuchTag w := by
  rw [servePage, absent]

theorem servePage_notReady {e : QueryEntry} (n : Nat) (found : findEntry w.qt a tag = some e)
    (notReady : ∀ hold, e.state ≠ .ready hold) : servePage a tag n place w = refuseSlot a place tag .notReady w := by
  rw [servePage, found]
  dsimp only
  split
  next hold _ state _ => exact absurd state (notReady hold)
  next => rfl

theorem servePage_ready {e : QueryEntry} {hold : Nat} {answer : Answer} (n : Nat) (found : findEntry w.qt a tag = some e)
    (ready : e.state = .ready hold) (answered : e.answer = some answer) : servePage a tag n place w =
      if n = 0 ∨ pageCountOf answer < n then refuseSlot a place tag .badPage w
      else answerSlot a place tag (pageOf n answer)
        (updateEntry a tag (fun x => { x with state := .ready w.config.holdTime }) w) := by
  rw [servePage, found]
  simp only [ready, answered]

theorem cancelEntry_absent (absent : findEntry w.qt a tag = none) :
    cancelEntry a tag place w = refuseSlot a place tag .noSuchTag w := by
  rw [cancelEntry, absent]

theorem cancelEntry_halting {e : QueryEntry} {cause : HaltCause} (found : findEntry w.qt a tag = some e)
    (halting : e.state = .halting cause) : cancelEntry a tag place w = refuseSlot a place tag .noSuchTag w := by
  rw [cancelEntry, found]
  simp only [halting]

theorem cancelEntry_working {e : QueryEntry} (found : findEntry w.qt a tag = some e) (working : e.state = .working) :
    cancelEntry a tag place w =
      updateEntry a tag (fun x => { x with state := .halting .cancel, cancelSlot := some place }) w := by
  rw [cancelEntry, found]
  simp only [working]

theorem cancelEntry_freed {e : QueryEntry} (found : findEntry w.qt a tag = some e)
    (state : e.state = .queued ∨ ∃ hold, e.state = .ready hold) :
    cancelEntry a tag place w = answerSlot a place tag .cancelled (freeEntry e w) := by
  rw [cancelEntry, found]
  rcases state with state | ⟨hold, state⟩ <;> simp only [state]

/-! ### What they leave unchanged -/

theorem requestFrame_updateEntry (a b : Addr) (tag : Tag) (f : QueryEntry → QueryEntry) (w : State) :
    RequestFrame a w (updateEntry b tag f w) := ⟨fun _ _ => rfl, ⟨⟨rfl, rfl, rfl, rfl, rfl, rfl, rfl, rfl⟩, rfl, rfl, rfl, rfl⟩⟩

theorem requestFrame_servePage (n : Nat) :
    RequestFrame a w (servePage a tag n place w) ∧ (servePage a tag n place w).re = w.re
      ∧ (servePage a tag n place w).fe = w.fe := by
  unfold servePage
  split
  · exact ⟨requestFrame_updateStation a _ w, rfl, rfl⟩
  · split
    · split
      · exact ⟨requestFrame_updateStation a _ w, rfl, rfl⟩
      · exact ⟨(requestFrame_updateEntry a a tag _ w).trans (requestFrame_updateStation a _ _), rfl, rfl⟩
    · exact ⟨requestFrame_updateStation a _ w, rfl, rfl⟩

theorem requestFrame_cancelEntry :
    RequestFrame a w (cancelEntry a tag place w) ∧ (cancelEntry a tag place w).re = w.re
      ∧ (cancelEntry a tag place w).fe = w.fe := by
  unfold cancelEntry
  split
  · exact ⟨requestFrame_updateStation a _ w, rfl, rfl⟩
  next e found =>
    obtain ⟨-, rfl, -⟩ := findEntry_some found
    have freed := (requestFrame_freeEntry e w).trans (requestFrame_updateStation e.addr (fillSlot place tag .cancelled) _)
    split
    · exact ⟨freed, rfl, rfl⟩
    · exact ⟨freed, rfl, rfl⟩
    · exact ⟨requestFrame_updateEntry e.addr e.addr tag _ w, rfl, rfl⟩
    · exact ⟨requestFrame_updateStation e.addr _ w, rfl, rfl⟩

/-- PAGE and CANCEL change what their own step changes, whether refused or an overrun or served. -/
theorem requestFrame_withSlot {f : Nat → State → State}
    (frame : ∀ place w, RequestFrame a w (f place w) ∧ (f place w).re = w.re ∧ (f place w).fe = w.fe) (v : State) :
    RequestFrame a v (withSlot a (inServiceOnly a tag f) v) ∧ (withSlot a (inServiceOnly a tag f) v).re = v.re
      ∧ (withSlot a (inServiceOnly a tag f) v).fe = v.fe := by
  have reserved := requestFrame_updateStation a (appendSlot none) v
  unfold withSlot
  split
  · exact ⟨requestFrame_updateStation a _ v, rfl, rfl⟩
  · unfold inServiceOnly
    split
    · exact ⟨reserved.trans (requestFrame_updateStation a _ _), rfl, rfl⟩
    · obtain ⟨acts, re, fe⟩ := frame (stationAt v a).nextPlace (updateStation a (appendSlot none) v)
      exact ⟨reserved.trans acts, re, fe⟩

end

/-! ### The slot of the request -/

section
variable {k : TrunkNo} {a : Addr} {s v : State} (roused : Roused k a s v) (tag : Tag)
include roused

theorem withSlot_inService {f : Nat → State → State} (room : (awake (stationAt s a)).queue.length < 4)
    (service : s.service = .service) : withSlot a (inServiceOnly a tag f) v =
      f (awake (stationAt s a)).nextPlace (updateStation a (appendSlot none) v) := by
  have service' : v.service = .service := roused.same.2.1.1.trans service
  rw [withSlot_room v _ (roused.station ▸ room), roused.station]
  exact if_neg (by simp [service'])

theorem withSlot_outOfService {f : Nat → State → State} (room : (awake (stationAt s a)).queue.length < 4)
    (service : s.service ≠ .service) : withSlot a (inServiceOnly a tag f) v =
      refuseSlot a (awake (stationAt s a)).nextPlace tag .notInService (updateStation a (appendSlot none) v) := by
  have service' : v.service ≠ .service := fun h => service (roused.same.2.1.1.symm.trans h)
  rw [withSlot_room v _ (roused.station ▸ room), roused.station]
  exact if_pos (by simpa using service')

end

/-- A message written into the slot just reserved, whatever has become of the entries. -/
theorem stationAt_answerSlot_reserved {a : Addr} {s u : State} (slots : SlotsInv (stationAt s a)) (tag : Tag)
    (m : Downstream) (station : stationAt u a = appendSlot none (awake (stationAt s a))) :
    stationAt (answerSlot a (awake (stationAt s a)).nextPlace tag m u) a =
      appendSlot (some (tag, m)) (awake (stationAt s a)) := by
  rw [answerSlot, stationAt_updateStation_same, station, fillSlot_appendSlot (awake_below slots)]

/-- A reserved slot whose entry is freed with a message, its own slot being given up. -/
theorem stationAt_answerSlot_freed {e : QueryEntry} {s u : State} (slots : SlotsInv (stationAt s e.addr)) (tag : Tag)
    (m : Downstream) (below : e.slot < (stationAt s e.addr).nextPlace)
    (station : stationAt u e.addr = appendSlot none (awake (stationAt s e.addr))) :
    stationAt (answerSlot e.addr (awake (stationAt s e.addr)).nextPlace tag m (freeEntry e u)) e.addr =
      appendSlot (some (tag, m)) (releaseSlot e.slot (awake (stationAt s e.addr))) := by
  have below' : e.slot < (awake (stationAt s e.addr)).nextPlace := by rw [awake_nextPlace]; exact below
  have freed : stationAt (freeEntry e u) e.addr =
      appendSlot none (releaseSlot e.slot (awake (stationAt s e.addr))) := by
    rw [← releaseSlot_appendSlot below', ← station]
    exact stationAt_updateStation_same u _ _
  have behind : ∀ x ∈ (releaseSlot e.slot (awake (stationAt s e.addr))).queue,
      x.place < (releaseSlot e.slot (awake (stationAt s e.addr))).nextPlace := fun x mem =>
    awake_below slots x (List.mem_of_mem_filter mem)
  rw [answerSlot, stationAt_updateStation_same, freed]
  exact fillSlot_appendSlot behind tag m

/-- Settles O53, by the room of the queue, the service state, and the entry with the tag. -/
theorem answersPagedAndCancelled : Obligations.AnswersPagedAndCancelled := by
  have pages : ∀ (k : TrunkNo) (d : Nat) (tag : Tag) (n : Byte) (x : Exchange) (s : State), answering k d x s →
      inService (stationAt s x.station) = true → ∃ v, Roused k x.station s v ∧ exec (.pageRequest k d tag [n]) s =
        .next (withSlot x.station (inServiceOnly x.station tag (servePage x.station tag n.toNat)) v) :=
    fun k d tag n x s answers serving =>
      exec_request (c := .pageRequest k d tag [n]) (type := .page) rfl answers serving rfl (by decide)
  have cancels : ∀ (k : TrunkNo) (d : Nat) (tag : Tag) (x : Exchange) (s : State), answering k d x s →
      inService (stationAt s x.station) = true → ∃ v, Roused k x.station s v ∧ exec (.cancelRequest k d tag []) s =
        .next (withSlot x.station (inServiceOnly x.station tag (cancelEntry x.station tag)) v) :=
    fun k d tag x s answers serving =>
      exec_request (c := .cancelRequest k d tag []) (type := .cancel) rfl answers serving rfl (by decide)
  refine ⟨fun k d tag n c x s answers queues serving asks => ?_, fun n h steps f results _ =>
    ⟨⟨_, rfl, length_pageSlice n steps, fun _ => getElem?_pageSlice steps⟩,
      ⟨_, rfl, length_pageSlice n results, fun _ => getElem?_pageSlice results⟩⟩,
    fun k d tag n x s answers queues serving service room => ?_, fun k d tag x s answers queues serving service room => ?_⟩
  · obtain ⟨f, v, roused, takes, frame⟩ : ∃ f v, Roused k x.station s v
        ∧ exec c s = .next (withSlot x.station (inServiceOnly x.station tag f) v)
        ∧ RequestFrame x.station v (withSlot x.station (inServiceOnly x.station tag f) v) := by
      rcases asks with rfl | rfl
      · obtain ⟨v, roused, takes⟩ := pages k d tag n x s answers serving
        exact ⟨_, v, roused, takes, (requestFrame_withSlot (fun _ _ => requestFrame_servePage n.toNat) v).1⟩
      · obtain ⟨v, roused, takes⟩ := cancels k d tag x s answers serving
        exact ⟨_, v, roused, takes, (requestFrame_withSlot (fun _ _ => requestFrame_cancelEntry) v).1⟩
    have same := sameButRequest_of_frame roused.same frame
    refine ⟨fun full => ⟨_, takes, same, withSlot_overrun roused _ full⟩, fun room outside => ⟨_, takes, same, ?_⟩⟩
    rw [withSlot_outOfService roused tag room outside]
    exact ⟨stationAt_answerSlot_reserved (queues.slots _) tag _ (by rw [stationAt_updateStation_same, roused.station]),
      roused.qt, roused.re, roused.fe⟩
  · obtain ⟨v, roused, takes⟩ := pages k d tag n x s answers serving
    obtain ⟨frame, re, fe⟩ := requestFrame_withSlot (a := x.station) (tag := tag)
      (fun _ _ => requestFrame_servePage n.toNat) v
    refine ⟨_, takes, sameButRequest_of_frame roused.same frame, re.trans roused.re, fe.trans roused.fe, ?_⟩
    rw [withSlot_inService roused tag (awake_queue _ ▸ room) service]
    have station : stationAt (updateStation x.station (appendSlot none) v) x.station =
        appendSlot none (awake (stationAt s x.station)) := by rw [stationAt_updateStation_same, roused.station]
    have qt : (updateStation x.station (appendSlot none) v).qt = s.qt := roused.qt
    have config : (updateStation x.station (appendSlot none) v).config = s.config := roused.same.2.1.2.2.1
    generalize updateStation x.station (appendSlot none) v = w at station qt config
    have written := fun m => stationAt_answerSlot_reserved (queues.slots _) tag m station
    refine ⟨fun absent => ?_, fun e found notReady => ?_, fun e hold answer found ready answered =>
      ⟨fun bad => ?_, fun positive inside => ?_⟩⟩
    · rw [servePage_absent _ (qt ▸ absent)]
      exact ⟨written _, qt⟩
    · rw [servePage_notReady _ (qt ▸ found) notReady]
      exact ⟨written _, qt⟩
    · have bad' : n.toNat = 0 ∨ pageCountOf answer < n.toNat := bad.imp_left fun h => by rw [h]; rfl
      rw [servePage_ready _ (qt ▸ found) ready answered, if_pos bad']
      exact ⟨written _, qt⟩
    · have good : ¬(n.toNat = 0 ∨ pageCountOf answer < n.toNat) := by
        rintro (zero | beyond)
        · exact positive (BitVec.eq_of_toNat_eq zero)
        · omega
      rw [servePage_ready _ (qt ▸ found) ready answered, if_neg good]
      refine ⟨stationAt_answerSlot_reserved (queues.slots _) tag _ station, ?_⟩
      rw [← qt, ← config]
      exact List.map_congr_left fun f _ => by simp only [isEntry_iff]
  · obtain ⟨v, roused, takes⟩ := cancels k d tag x s answers serving
    obtain ⟨frame, re, fe⟩ := requestFrame_withSlot (a := x.station) (tag := tag) (fun _ _ => requestFrame_cancelEntry) v
    refine ⟨_, takes, sameButRequest_of_frame roused.same frame, re.trans roused.re, fe.trans roused.fe, ?_⟩
    rw [withSlot_inService roused tag (awake_queue _ ▸ room) service]
    have station : stationAt (updateStation x.station (appendSlot none) v) x.station =
        appendSlot none (awake (stationAt s x.station)) := by rw [stationAt_updateStation_same, roused.station]
    have qt : (updateStation x.station (appendSlot none) v).qt = s.qt := roused.qt
    generalize updateStation x.station (appendSlot none) v = w at station qt
    have written := fun m => stationAt_answerSlot_reserved (queues.slots _) tag m station
    refine ⟨fun refused => ?_, fun e found working => ?_, fun e found state => ?_⟩
    · rcases refused with absent | ⟨e, cause, found, halting⟩
      · rw [cancelEntry_absent (qt ▸ absent)]
        exact ⟨written _, qt⟩
      · rw [cancelEntry_halting (qt ▸ found) halting]
        exact ⟨written _, qt⟩
    · rw [cancelEntry_working (qt ▸ found) working]
      refine ⟨station, ?_⟩
      rw [← qt]
      exact List.map_congr_left fun f _ => by simp only [isEntry_iff]
    · rw [cancelEntry_freed (qt ▸ found) state]
      obtain ⟨mem, addr, hasTag⟩ := findEntry_some found
      have below := queues.entries e mem
      rw [← addr] at station ⊢
      refine ⟨stationAt_answerSlot_freed (queues.slots _) tag _ below station, ?_⟩
      rw [← qt, ← hasTag]
      rfl

end Sys2Proof.Proofs
end

section
/-! PROOF. The build of the exit tree (R182 to R184). -/

namespace Sys2Proof.Proofs
open Sys2Proof.Machine Sys2Proof.Safety Sys2Proof.Laws

/-! ### The route arbiter -/

/-- An entry of the route engine is a ROUTE. -/
theorem query_of_isRoute {e : QueryEntry} (route : isRoute e = true) :
    ∃ target profile origin, e.query = .route target profile origin := by
  cases query : e.query with
  | route target profile origin => exact ⟨target, profile, origin, rfl⟩
  | find | browse => simp [isRoute, query] at route

/-- While the unit is ACTIVE a grant begins no search (R144). -/
theorem startRoute_phase {s : State} (active : s.eu.unit = .active) (e : QueryEntry) (target : Target) (profile : Profile)
    (origin : Option Nat) : ∃ w, (startRoute s e target profile origin).work = some w ∧ w.phase ≠ .searching := by
  have walks : (s.eu.unit == .active) = true := by simp [active]
  unfold startRoute
  cases origin' : resolveOrigin s.wg e.addr origin with
  | none => exact ⟨_, rfl, by simp⟩
  | some o =>
    dsimp only
    rw [if_pos walks]
    exact ⟨_, rfl, by simp⟩

theorem grant_re (s : State) : (grant s).re = (grantRoute s).re := by simp [grant]

/-! ### Relaxation backward (R183) -/

theorem relaxBackward_none {c : Configuration} {wg : Graph} {q m : Nat} {x : Search} (free : tableGet wg.segments m = none) :
    relaxBackward c wg q m x = x := by
  rw [relaxBackward, free]

theorem relaxBackward_some {c : Configuration} {wg : Graph} {q m : Nat} {x : Search} {g : Segment}
    (segment : tableGet wg.segments m = some g) : relaxBackward c wg q m x =
      if permitted .evacuation g (otherEnd g q) q = true
      then offer ((recordOf x q).cost + segmentCost c .evacuation wg g) m (otherEnd g q) x else x := by
  rw [relaxBackward, segment]

/-- Settles O60, one step of the build after another. -/
theorem exitTreeBuilt : Obligations.ExitTreeBuilt := by
  refine ⟨fun s run => ⟨fun due => ?_, fun notDue => ?_⟩, fun c wg q m x => ⟨relaxBackward_none, fun g segment shut => ?_,
    fun g segment open' inv => ?_⟩, fun cost n rest s run building frontier => ?_, fun s run building done wanted => ?_,
    fun s run building done unwanted => ?_⟩
  · refine ⟨beginTree s.wg, ?_, treeBegun_beginTree s.wg⟩
    exact live_whenever (p := fun s => buildDue s = true) (f := startBuild) run ((buildDue_iff s).2 due)
  · exact live_whenever_not (p := fun s => buildDue s = true) (f := startBuild) run (mt (buildDue_iff s).1 notDue)
  · rw [relaxBackward_some segment, if_neg (by simp [shut])]
  · rw [relaxBackward_some segment, if_pos open']
    exact offer_relaxed _ _ _ inv
  · have settles : treeSettle s = { s with eu := { s.eu with
        tree := relaxAll (relaxBackward s.config s.wg n) (adjacencyOf s.wg n) (settleFirst n rest s.eu.tree) } } := by
      unfold treeSettle
      rw [frontier]
    exact (live_whenever (p := fun s => s.eu.unit = .building) (f := treeSettle) run building).trans (congrArg _ settles)
  · refine (live_whenever (p := fun s => s.eu.unit = .building ∧ s.eu.tree.frontier = [])
      (f := fun s => afterBuild { s with eu := { s.eu with unit := .active } }) run ⟨building, done⟩).trans ?_
    rw [afterBuild, if_pos wanted]
    rfl
  · have completes : exec .exitTreeBuildComplete s = .next (grant { s with eu := { s.eu with unit := .active } }) := by
      refine (live_whenever (p := fun s => s.eu.unit = .building ∧ s.eu.tree.frontier = [])
        (f := fun s => afterBuild { s with eu := { s.eu with unit := .active } }) run ⟨building, done⟩).trans ?_
      rw [afterBuild, if_neg (by simp [unwanted])]
    refine ⟨_, completes, by simp, fun idle steady waits => ?_, fun table => grant_granted table.distinct, by simp [sameRecords],
      by simp, by simp, by simp⟩
    obtain ⟨e, oldest⟩ := Option.ne_none_iff_exists'.1 waits
    have chosen := List.find?_some oldest
    simp only [Bool.and_eq_true] at chosen
    obtain ⟨target, profile, origin, query⟩ := query_of_isRoute chosen.2
    have may : routeMayGrant { s with eu := { s.eu with unit := .active } } = true :=
      (routeMayGrant_iff _).2 ⟨idle, steady, .inr rfl⟩
    have begins := grantRoute_begins may oldest query
    rw [grant_re, begins]
    exact startRoute_phase rfl e target profile origin

end Sys2Proof.Proofs
end

section
/-! PROOF. The halts of the engines at their boundaries (R118, R126, R150, R156). -/

namespace Sys2Proof.Proofs
open Sys2Proof.Machine Sys2Proof.Safety Sys2Proof.Laws

/-! ### What a grant works on -/

/-- The work of a route engine that is idle before a grant is of an entry of the table. -/
theorem grantRoute_work {u : State} (idle : u.re.work = none) : (grantRoute u).re.work = none
    ∨ ∃ w, (grantRoute u).re.work = some w ∧ ∃ e ∈ u.qt.entries, e.state = .queued ∧ e.addr = w.addr ∧ e.tag = w.tag := by
  by_cases grants : routeMayGrant u = true ∧ oldestQueued isRoute u.qt ≠ none
  · obtain ⟨may, waits⟩ := grants
    obtain ⟨e, oldest⟩ := Option.ne_none_iff_exists'.1 waits
    obtain ⟨-, route⟩ := isRoute_of_oldest oldest
    obtain ⟨target, profile, origin, query⟩ := query_of_isRoute route
    rw [grantRoute_begins may oldest query]
    refine .inr ?_
    have work : ∃ w, (startRoute u e target profile origin).work = some w ∧ e.addr = w.addr ∧ e.tag = w.tag := by
      unfold startRoute
      dsimp only
      repeat' split
      all_goals exact ⟨_, rfl, rfl, rfl⟩
    obtain ⟨w, work, addr, tag⟩ := work
    have queued : e.state = .queued := by
      have chosen := List.find?_some oldest
      simp only [Bool.and_eq_true, isQueued, beq_iff_eq] at chosen
      exact chosen.1
    exact ⟨w, work, e, List.mem_of_find?_eq_some oldest, queued, addr, tag⟩
  · refine .inl ?_
    rw [grantRoute_none (by simpa [imp_iff_or_not, or_comm] using grants), idle]

/-- The work of a find engine that is idle before a grant is of an entry of the table. -/
theorem grantFind_work {u : State} (idle : u.fe.work = none) : (grantFind u).fe.work = none
    ∨ ∃ w, (grantFind u).fe.work = some w ∧ ∃ e ∈ u.qt.entries, e.addr = w.addr ∧ e.tag = w.tag := by
  unfold grantFind
  split
  · split
    · exact .inl idle
    next e oldest =>
      split
      · exact .inl idle
      · exact .inr ⟨_, rfl, e, List.mem_of_find?_eq_some oldest, rfl, rfl⟩
  · exact .inl idle

theorem absent_of_someGranted {s : State} {before after : List QueryEntry} (grants : SomeGranted s before after) {a : Addr}
    {tag : Tag} (absent : ∀ e ∈ before, ¬(e.addr = a ∧ e.tag = tag)) : ∀ e ∈ after, ¬(e.addr = a ∧ e.tag = tag) := by
  obtain ⟨chosen, rfl⟩ := grants
  intro e mem
  obtain ⟨x, hx, rfl⟩ := List.mem_map.1 mem
  split
  · exact absent x hx
  · exact absent x hx

/-- After a grant the idle engines work on no entry that was not in the table. -/
theorem grant_other {u : State} {a : Addr} {tag : Tag} (absent : ∀ e ∈ u.qt.entries, ¬(e.addr = a ∧ e.tag = tag)) :
    findEntry (grant u).qt a tag = none
    ∧ (u.re.work = none → (grant u).re.work = none ∨ ∃ w, (grant u).re.work = some w ∧ ¬(w.addr = a ∧ w.tag = tag))
    ∧ (u.fe.work = none → (grant u).fe.work = none ∨ ∃ w, (grant u).fe.work = some w ∧ ¬(w.addr = a ∧ w.tag = tag)) := by
  have absent' := absent_of_someGranted (someGranted_grantRoute u) absent
  refine ⟨findEntry_none.2 (absent_of_someGranted (someGranted_grant u) absent), fun idle => ?_, fun idle => ?_⟩
  · rw [grant_re]
    refine (grantRoute_work idle).imp_right fun ⟨w, work, e, mem, _, addr, hasTag⟩ => ⟨w, work, fun same => absent e mem ?_⟩
    exact ⟨addr.trans same.1, hasTag.trans same.2⟩
  · have idle' : (grantRoute u).fe.work = none := by simpa using idle
    refine (grantFind_work idle').imp_right fun ⟨w, work, e, mem, addr, hasTag⟩ => ⟨w, work, fun same => absent' e mem ?_⟩
    exact ⟨addr.trans same.1, hasTag.trans same.2⟩

/-! ### The freed entry -/

theorem freeHalted_frees (e : QueryEntry) (cause : HaltCause) (s : State) : freeHalted e cause s =
    { s with qt := { entries := s.qt.entries.filter fun f => !(f.addr == e.addr && f.tag == e.tag) }
             kl := (freeHalted e cause s).kl } := by
  cases cause with
  | cancel => cases hc : e.cancelSlot <;> simp only [freeHalted, hc] <;> rfl
  | stationLeft => rfl
  | evacuation => rfl

theorem stationAt_freeHalted_other {e : QueryEntry} (cause : HaltCause) (s : State) {b : Addr} (other : b ≠ e.addr) :
    stationAt (freeHalted e cause s) b = stationAt s b := by
  cases cause with
  | cancel =>
    cases hc : e.cancelSlot with
    | none =>
      simp only [freeHalted, hc]
      exact stationAt_updateStation_other _ _ other
    | some place =>
      simp only [freeHalted, hc]
      exact (stationAt_updateStation_other _ _ other).trans (stationAt_updateStation_other _ _ other)
  | stationLeft => rfl
  | evacuation => exact stationAt_updateStation_other _ _ other

theorem stationAt_freeHalted_cancel {e : QueryEntry} {place : Nat} (s : State) (reserved : e.cancelSlot = some place) :
    stationAt (freeHalted e .cancel s) e.addr =
      releaseSlot e.slot (fillSlot place e.tag .cancelled (stationAt s e.addr)) := by
  simp only [freeHalted, reserved]
  exact (stationAt_updateStation_same _ _ _).trans (congrArg _ (stationAt_updateStation_same _ _ _))

theorem haltCause_halting {s : State} {a : Addr} {tag : Tag} {e : QueryEntry} {cause : HaltCause}
    (found : findEntry s.qt a tag = some e) (halting : e.state = .halting cause) : haltCause s a tag = some cause := by
  rw [haltCause, found]
  simp only [halting]

/-! ### The two engines -/

theorem afterRouteIdle_frame (u : State) : sameRecords u (afterRouteIdle u) ∧ (afterRouteIdle u).ec = u.ec
    ∧ (afterRouteIdle u).ep = u.ep ∧ (afterRouteIdle u).kl = u.kl := by
  simp [afterRouteIdle, sameRecords]

/-- The part when the route engine has abandoned its entry, before what follows. -/
def routeAbandoned (e : QueryEntry) (cause : HaltCause) (s : State) : State := routeIdle (freeHalted e cause s)

theorem routeBoundary_halting {s : State} {w : RouteWork} {e : QueryEntry} {cause : HaltCause}
    (found : findEntry s.qt w.addr w.tag = some e) (halting : e.state = .halting cause) (f : State → State) :
    routeBoundary w f s = afterRouteIdle (routeAbandoned e cause s) := by
  rw [routeBoundary, haltCause_halting found halting]
  simp only [haltRoute, found]
  rfl

theorem findBoundary_halting {s : State} {w : FindWork} {e : QueryEntry} {cause : HaltCause}
    (found : findEntry s.qt w.addr w.tag = some e) (halting : e.state = .halting cause) (f : State → State) :
    findBoundary w f s = grant (findIdle (freeHalted e cause s)) := by
  rw [findBoundary, haltCause_halting found halting]
  simp only [haltFind, found]

theorem filter_absent (entries : List QueryEntry) (a : Addr) (tag : Tag) :
    ∀ e ∈ entries.filter fun f => !(f.addr == a && f.tag == tag), ¬(e.addr = a ∧ e.tag = tag) := by
  intro e mem
  have other := (List.mem_filter.1 mem).2
  simp only [Bool.not_eq_true', Bool.and_eq_false_iff, beq_eq_false_iff_ne] at other
  tauto

section
variable {s : State}

theorem exec_routeEngineHalt {w : RouteWork} (run : s.resetHeld = false) (work : s.re.work = some w)
    (boundary : atRouteBoundary w s = true) : exec .routeEngineHalt s = .next (routeBoundary w id s) := by
  show execRouteEngineHalt s = _
  simp [execRouteEngineHalt, live, run, work, whenever, boundary]

theorem exec_routeSearchSettle {w : RouteWork} (run : s.resetHeld = false) (work : s.re.work = some w)
    (phase : w.phase = .searching) : exec .routeSearchSettle s = .next (searchStep w s) := by
  show execRouteSearchSettle s = _
  simp [execRouteSearchSettle, live, run, inRoutePhase, work, phase]

theorem exec_exitTreeWalkStep {w : RouteWork} (run : s.resetHeld = false) (work : s.re.work = some w)
    (phase : w.phase = .walking) : exec .exitTreeWalkStep s = .next (routeBoundary w (walkStep w) s) := by
  show execExitTreeWalkStep s = _
  simp [execExitTreeWalkStep, live, run, inRoutePhase, work, phase]

theorem exec_routeFormingEnd {w : RouteWork} (run : s.resetHeld = false) (work : s.re.work = some w)
    (phase : w.phase = .forming) : exec .routeFormingEnd s = .next (routeBoundary w (finishRoute w) s) := by
  show execRouteFormingEnd s = _
  simp [execRouteFormingEnd, live, run, inRoutePhase, work, phase]

theorem searchStep_boundary {w : RouteWork} (phase : w.phase = .searching) (boundary : atRouteBoundary w s = true) :
    searchStep w s = routeBoundary w (settleStep w) s := by
  have goes : searchEnds w s.re.search = none := by simpa [atRouteBoundary, phase] using boundary
  rw [searchStep, goes]

theorem exec_findEngineHalt {w : FindWork} (run : s.resetHeld = false) (work : s.fe.work = some w)
    (boundary : atFindBoundary w s = true) : exec .findEngineHalt s = .next (findBoundary w id s) := by
  show execFindEngineHalt s = _
  simp [execFindEngineHalt, live, run, work, whenever, boundary]

theorem exec_findScanStep {w : FindWork} (run : s.resetHeld = false) (work : s.fe.work = some w)
    (scanning : w.forming = false) : exec .findScanStep s = .next (scanStep w s) := by
  show execFindScanStep s = _
  simp [execFindScanStep, live, run, work, whenever, scanning]

theorem exec_findFormingEnd {w : FindWork} (run : s.resetHeld = false) (work : s.fe.work = some w)
    (forming : w.forming = true) : exec .findFormingEnd s = .next (findBoundary w (finishFind w) s) := by
  show execFindFormingEnd s = _
  simp [execFindFormingEnd, live, run, work, whenever, forming]

theorem scanStep_inside {w : FindWork} {n : Nat} (inside : s.ds.nameIndex[w.position]? = some n) :
    scanStep w s = findBoundary w (scanListing w n) s := by
  rw [scanStep, inside]

end

/-- Settles O59: at a boundary every step of an engine with a HALTING entry abandons it. -/
theorem enginesHalt : Obligations.EnginesHalt := by
  refine ⟨fun w e cause s run work boundary found halting => ?_, fun w e cause s run work boundary found halting => ?_⟩
  · have halts := routeBoundary_halting found halting
    have halt := exec_routeEngineHalt run work boundary
    rw [halts] at halt
    obtain ⟨-, addr, hasTag⟩ := findEntry_some found
    have freed := freeHalted_frees e cause s
    have left := afterRouteIdle_frame (routeAbandoned e cause s)
    obtain ⟨records, ec, ep, kl⟩ := left
    have station : ∀ b, stationAt (afterRouteIdle (routeAbandoned e cause s)) b = stationAt (freeHalted e cause s) b :=
      fun b => by rw [stationAt, kl]; rfl
    have qt : (beginBuildIfDue (routeAbandoned e cause s)).qt = (freeHalted e cause s).qt := by simp [routeAbandoned, routeIdle]
    have absent : ∀ f ∈ (beginBuildIfDue (routeAbandoned e cause s)).qt.entries, ¬(f.addr = w.addr ∧ f.tag = w.tag) := by
      rw [qt, freed, addr, hasTag]
      exact filter_absent _ _ _
    obtain ⟨gone, route, -⟩ := grant_other absent
    refine ⟨_, halt, route (by simp [routeAbandoned, routeIdle]), gone, fun b other => ?_, fun cause' => ?_, fun cause' => ?_,
      fun place cause' reserved => ?_, fun notForming => ?_, fun forming => ?_, fun table => ?_, ?_, ?_, ?_, ?_⟩
    · rw [station, stationAt_freeHalted_other cause s (addr ▸ other)]
    · rw [station, cause']
      rfl
    · rw [station, cause', ← addr, ← hasTag]
      exact stationAt_updateStation_same _ _ _
    · rw [station, cause', ← addr, ← hasTag]
      exact stationAt_freeHalted_cancel s reserved
    · rw [halt]
      cases phase : w.phase with
      | searching => rw [if_pos rfl, exec_routeSearchSettle run work phase, searchStep_boundary phase boundary, halts]
      | walking => rw [if_neg (by simp), exec_exitTreeWalkStep run work phase, halts]
      | forming => exact absurd phase notForming
    · rw [halt, exec_routeFormingEnd run work forming, halts]
    · have abandoned : routeAbandoned e cause s = { s with
          qt := { entries := s.qt.entries.filter fun f => !(f.addr == w.addr && f.tag == w.tag) }
          re := { work := none, search := { s.re.search with frontier := [] } }
          kl := (afterRouteIdle (routeAbandoned e cause s)).kl } := by
        rw [kl, routeAbandoned, routeIdle, freed, addr, hasTag]
      have idled := afterRouteIdle_idled (s := routeAbandoned e cause s) (by simp [routeAbandoned, routeIdle, run])
        (by rw [routeAbandoned, routeIdle, freed]; exact table.distinct.filter _)
      rw [← abandoned]
      exact idled
    · refine sameRecords_trans ?_ records
      simp [routeAbandoned, routeIdle, sameRecords]
    · rw [ec]
      simp [routeAbandoned, routeIdle]
    · rw [ep]
      simp [routeAbandoned, routeIdle]
    · rw [kl]
      simp [routeAbandoned, routeIdle]
  · have halts := findBoundary_halting found halting
    have halt := exec_findEngineHalt run work boundary
    rw [halts] at halt
    obtain ⟨-, addr, hasTag⟩ := findEntry_some found
    have freed := freeHalted_frees e cause s
    have kl : (grant (findIdle (freeHalted e cause s))).kl = (freeHalted e cause s).kl := by simp [findIdle]
    have station : ∀ b, stationAt (grant (findIdle (freeHalted e cause s))) b = stationAt (freeHalted e cause s) b :=
      fun b => by rw [stationAt, kl]; rfl
    have absent : ∀ f ∈ (findIdle (freeHalted e cause s)).qt.entries, ¬(f.addr = w.addr ∧ f.tag = w.tag) := by
      rw [findIdle, freed, addr, hasTag]
      exact filter_absent _ _ _
    obtain ⟨gone, -, find⟩ := grant_other absent
    refine ⟨_, halt, find rfl, gone, fun b other => ?_, fun cause' => ?_, fun place cause' reserved => ?_, ?_, fun table => ?_,
      ?_, ?_, ?_, ?_⟩
    · rw [station, stationAt_freeHalted_other cause s (addr ▸ other)]
    · rw [station, cause']
      rfl
    · rw [station, cause', ← addr, ← hasTag]
      exact stationAt_freeHalted_cancel s reserved
    · rw [halt]
      cases forming : w.forming with
      | true => rw [if_pos rfl, exec_findFormingEnd run work forming, halts]
      | false =>
        have inside : ∃ n, s.ds.nameIndex[w.position]? = some n := by
          rw [← Option.isSome_iff_exists]
          simpa only [atFindBoundary, forming, Bool.false_or] using boundary
        obtain ⟨n, inside⟩ := inside
        rw [if_neg (by simp), exec_findScanStep run work forming, scanStep_inside inside, halts]
    · have abandoned : findIdle (freeHalted e cause s) = { s with
          qt := { entries := s.qt.entries.filter fun f => !(f.addr == w.addr && f.tag == w.tag) }
          fe := { work := none }
          kl := (grant (findIdle (freeHalted e cause s))).kl } := by
        rw [kl, findIdle, freed, addr, hasTag]
      have granted := grant_granted (s := findIdle (freeHalted e cause s))
        (by rw [findIdle, freed]; exact table.distinct.filter _)
      rw [← abandoned]
      exact granted
    · simp [findIdle, sameRecords]
    all_goals simp [findIdle]

end Sys2Proof.Proofs
end

section
/-! PROOF. The route answer: the path traced back, its steps cut to 64, and the header (R136 to R143). -/

namespace Sys2Proof.Proofs
open Sys2Proof.Machine Sys2Proof.Safety Sys2Proof.Laws

/-! ### The path traced back (R136) -/

theorem pathTo_of_traced {wg : Graph} {x : Search} {n o : Nat} {segments : List Nat} (traced : Traced wg x n segments o)
    {fuel : Nat} (enough : segments.length ≤ fuel) (after : List Nat) : pathTo wg x fuel n after = segments ++ after := by
  induction traced generalizing fuel after with
  | origin n start =>
    cases fuel with
    | zero => rfl
    | succ fuel => rw [pathTo, start]; rfl
  | back n m g segments o via segment _ ih =>
    rw [List.length_append, List.length_singleton] at enough
    obtain ⟨fuel, rfl⟩ : ∃ k, fuel = k + 1 := ⟨fuel - 1, by omega⟩
    rw [pathTo, via]
    simp only [segment]
    rw [ih (by omega), List.append_assoc, List.singleton_append]

/-! ### The steps cut to 64 (R139, R140) -/

theorem lengthBetween_add {legs : List Leg} {a b c : Nat} (ab : a ≤ b) (bc : b ≤ c) (inside : b ≤ legs.length) :
    lengthBetween legs a b + lengthBetween legs b c = lengthBetween legs a c := by
  have split : legs.take c = legs.take b ++ (legs.take c).drop b := by
    conv_lhs => rw [← List.take_append_drop b (legs.take c), List.take_take, Nat.min_eq_left bc]
  have within : a ≤ (legs.take b).length := by rw [List.length_take]; omega
  rw [lengthBetween, lengthBetween, lengthBetween]
  conv_rhs => rw [split, List.drop_append_of_le_length within]
  rw [List.map_append, List.sum_append]

section
variable {first : Nat} {legs : List Leg}

theorem length_stepsSince (before : Nat) (placed : List (Nat × StepAction × Nat)) :
    (stepsSince first legs before placed).length = placed.length := by simp [stepsSince]

theorem drop_stepsSince {before k : Nat} {placed : List (Nat × StepAction × Nat)} {p : Nat × StepAction × Nat}
    (at_k : placed[k]? = some p) : (stepsSince first legs before placed).drop (k + 1) =
      stepsSince first legs p.1 (placed.drop (k + 1)) := by
  induction placed generalizing before k with
  | nil => simp at at_k
  | cons q placed ih =>
    rw [stepsSince_cons, List.drop_succ_cons, List.drop_succ_cons]
    cases k with
    | zero =>
      obtain rfl : q = p := by simpa using at_k
      rfl
    | succ k => exact ih (by simpa using at_k)

/-- The distances of steps at ascending places add up to the length from the first place to the last. -/
theorem sum_stepsSince {before last : Nat} {placed : List (Nat × StepAction × Nat)}
    (ascending : (before :: placed.map fun p => p.1).Pairwise (· ≤ ·)) (inside : ∀ p ∈ placed, p.1 ≤ legs.length)
    (ends : (before :: placed.map fun p => p.1).getLast? = some last) :
    ((stepsSince first legs before placed).map fun x => x.distance).sum = lengthBetween legs before last := by
  induction placed generalizing before with
  | nil =>
    obtain rfl : before = last := by simpa using ends
    exact (lengthBetween_self legs before).symm
  | cons q placed ih =>
    obtain ⟨later, rest⟩ := List.pairwise_cons.1 ascending
    have ends' : (q.1 :: placed.map fun p => p.1).getLast? = some last := by simpa using ends
    have beyond : q.1 ≤ last := by
      have mem := List.mem_of_getLast? ends'
      rcases List.mem_cons.1 mem with rfl | mem
      · exact le_refl _
      · exact (List.pairwise_cons.1 rest).1 last mem
    rw [stepsSince_cons, List.map_cons, List.sum_cons, ih rest (fun p hp => inside p (List.mem_cons_of_mem _ hp)) ends']
    exact lengthBetween_add (later q.1 (by simp)) beyond (inside q List.mem_cons_self)

/-- The last step is the last action at its place. -/
theorem getLast?_stepsSince {before : Nat} {placed : List (Nat × StepAction × Nat)} {q : Nat × StepAction × Nat}
    (ends : placed.getLast? = some q) :
    ∃ d, (stepsSince first legs before placed).getLast? =
      some { node := nodeAt first legs q.1, action := q.2.1, floor := q.2.2, distance := d } := by
  induction placed generalizing before with
  | nil => simp at ends
  | cons p placed ih =>
    rw [stepsSince_cons]
    cases placed with
    | nil =>
      obtain rfl : p = q := by simpa using ends
      exact ⟨_, rfl⟩
    | cons p' placed =>
      obtain ⟨d, eq⟩ := ih (before := p.1) (by simpa using ends)
      refine ⟨d, ?_⟩
      rw [stepsSince_cons] at eq ⊢
      rw [List.getLast?_cons_cons, eq]

end

section
variable (wg : Graph) (first : Nat) (legs : List Leg)

theorem stepsOf_eq_stepsSince : stepsOf wg first legs = stepsSince first legs 0 (placedSteps wg first legs) := rfl

theorem length_stepsOf : (stepsOf wg first legs).length = (placedSteps wg first legs).length :=
  length_stepsSince 0 _

theorem placedSteps_ascending : ((placedSteps wg first legs).map fun p => p.1).Pairwise (· ≤ ·)
    ∧ ∀ p ∈ placedSteps wg first legs, p.1 ≤ legs.length := by
  have middle : ∀ p ∈ (List.range legs.length).filterMap (fun i => (stepAt wg first legs i).map fun p => (i, p)),
      p.1 < legs.length := fun p mem => by
    obtain ⟨i, hi, eq⟩ := List.mem_filterMap.1 mem
    obtain ⟨x, -, rfl⟩ := Option.map_eq_some_iff.1 eq
    exact List.mem_range.1 hi
  have rising : ((List.range legs.length).filterMap fun i => (stepAt wg first legs i).map fun p => (i, p)).Pairwise
      fun p q => p.1 ≤ q.1 := by
    refine List.Pairwise.filterMap _ (fun i j less p hp q hq => ?_) List.pairwise_le_range
    obtain ⟨x, -, rfl⟩ := Option.map_eq_some_iff.1 hp
    obtain ⟨y, -, rfl⟩ := Option.map_eq_some_iff.1 hq
    exact less
  constructor
  · rw [List.pairwise_map, placedSteps, List.cons_append, List.pairwise_cons, List.pairwise_append]
    refine ⟨fun _ _ => Nat.zero_le _, rising, by simp, fun p mem q last => ?_⟩
    obtain rfl := List.mem_singleton.1 last
    exact (middle p mem).le
  · intro p mem
    rcases List.mem_append.1 mem with mem | mem
    · rcases List.mem_cons.1 mem with rfl | mem
      · exact Nat.zero_le _
      · exact (middle p mem).le
    · obtain rfl := List.mem_singleton.1 mem
      exact le_refl _

theorem getLast?_placedSteps : (placedSteps wg first legs).getLast? =
    some (legs.length, .arrive, floorOf wg (nodeAt first legs legs.length)) := by
  rw [placedSteps, List.getLast?_append]
  rfl

/-- What the model truncates is what R140 says. -/
theorem truncateSteps_eq_answerSteps :
    (truncateSteps (stepsOf wg first legs)).map saturateStep = answerSteps wg first legs := by
  have saturate : saturateStep = fun x => { x with distance := min 65535 x.distance } := rfl
  unfold truncateSteps answerSteps
  dsimp only
  rw [List.length_map, ← saturate]
  by_cases few : (stepsOf wg first legs).length ≤ 64
  · rw [if_pos (by simpa [stepCapacity] using few), if_pos few]
  · rw [if_neg (by simpa [stepCapacity] using few), if_neg few]
    have many : 64 < (placedSteps wg first legs).length := by rw [length_stepsOf] at few; omega
    obtain ⟨p, at_p⟩ : ∃ p, (placedSteps wg first legs)[62]? = some p := ⟨_, List.getElem?_eq_getElem (by omega)⟩
    obtain ⟨d, last⟩ := getLast?_stepsSince (first := first) (legs := legs) (before := 0)
      (getLast?_placedSteps wg first legs)
    rw [← stepsOf_eq_stepsSince] at last
    obtain ⟨ascending, inside⟩ := placedSteps_ascending wg first legs
    have rest : (stepsOf wg first legs).drop 63 = stepsSince first legs p.1 ((placedSteps wg first legs).drop 63) :=
      drop_stepsSince at_p
    have tail : (placedSteps wg first legs).drop 62 = p :: (placedSteps wg first legs).drop 63 := by
      obtain ⟨inside62, rfl⟩ := List.getElem?_eq_some_iff.1 at_p
      exact List.drop_eq_getElem_cons inside62
    have sum : (((stepsOf wg first legs).drop 63).map fun x => x.distance).sum = lengthBetween legs p.1 legs.length := by
      rw [rest]
      refine sum_stepsSince ?_ (fun q mem => inside q (List.mem_of_mem_drop mem)) ?_
      · have later := ascending.sublist (List.drop_sublist 62 _)
        rwa [← List.map_drop, tail, List.map_cons] at later
      · have ends : ((placedSteps wg first legs).drop 62).getLast? =
            some (legs.length, .arrive, floorOf wg (nodeAt first legs legs.length)) := by
          rw [List.getLast?_drop, if_neg (by omega), getLast?_placedSteps]
        rw [← List.map_cons (f := fun p : Nat × StepAction × Nat => p.1), ← tail, List.getLast?_map, ends]
        rfl
    rw [last, at_p, sum, List.map_append, List.map_take]
    rfl

end

/-! ### The header (R141 to R143) -/

theorem pathOf_taken {s : State} {w : RouteWork} {o : Nat} {segments : List Nat} (origin : w.origin = some o)
    (taken : PathTaken s w o segments) : pathOf s w = (o, segments) := by
  unfold PathTaken at taken
  unfold pathOf
  rw [origin]
  by_cases walked : w.profile = .evacuation
  · rw [if_pos walked] at taken
    simp [walked, taken]
  · rw [if_neg walked] at taken
    obtain ⟨short, n, reached, traced⟩ := taken
    simp [walked, reached, pathTo_of_traced traced short]

/-- The answer that the engine forms is the one R136 to R143 describe. -/
theorem routeAnswered_formRoute (s : State) (w : RouteWork) (epoch : Nat) :
    RouteAnswered s w epoch (formRoute s w epoch).1 (formRoute s w epoch).2 where
  tag := rfl
  status := rfl
  epoch := rfl
  finalListing := rfl
  approximate := rfl
  relocated := rfl
  evacuation := by simp [formRoute]
  counts := ⟨rfl, rfl⟩
  failed := fun lost => by
    have lost' : (w.outcome == some .found) = false := by simpa using lost
    simp [formRoute, lost', truncateSteps, minutesOf_eq]
  found := fun o segments found origin taken => by
    intro legs seconds
    have found' : (w.outcome == some .found) = true := by simp [found]
    have path := pathOf_taken origin taken
    have steps : (formRoute s w epoch).2 = answerSteps s.wg o legs := by
      simp only [formRoute, found', path, if_true, allSteps_eq_stepsOf]
      exact truncateSteps_eq_answerSteps s.wg o legs
    refine ⟨steps, ?_, fun walked => ?_, fun n searched reached => ?_, ?_, ?_, ?_, ?_, fun noFinal => ?_, fun m l final listing => ?_⟩
    · simp [formRoute, found']
    · have cost : pathCost s w = (recordOf s.eu.tree o).cost := by simp [pathCost, walked, origin]
      simp [formRoute, found', cost]
    · have cost : pathCost s w = (recordOf s.re.search n).cost := by simp [pathCost, searched, reached]
      simp [formRoute, found', cost]
    · simp [formRoute, found', path, seconds, legs]
    · simp [formRoute, found', path, seconds, legs, minutesOf_eq]
    · simp [formRoute, found', path, seconds, legs, minutesOf_eq]
    · simp [formRoute, found', path, legs, allSteps_eq_stepsOf, stepCapacity]
    · simp [formRoute, answerClosed, noFinal]
    · simp [formRoute, found', answerClosed, final, numberOpenNow, listing]

end Sys2Proof.Proofs
end

section
/-! PROOF. The grant and the steps of the Route Engine (R110, R126 to R134, R143, R144). -/

namespace Sys2Proof.Proofs
open Sys2Proof.Machine Sys2Proof.Safety Sys2Proof.Laws

/-! ### Origin and target (R127 to R129) -/

theorem resolveOrigin_eq_none {s : State} {a : Addr} {origin : Option Nat}
    (fails : (∃ n, origin = some n ∧ tableGet s.wg.nodes n = none) ∨ (origin = none ∧ s.wg.homes[a] = none)) :
    resolveOrigin s.wg a origin = none := by
  rcases fails with ⟨n, rfl, free⟩ | ⟨rfl, homeless⟩
  · simp [resolveOrigin, inUse, free]
  · exact homeless

theorem resolveOrigin_eq_some {s : State} {a : Addr} {origin : Option Nat} {o : Nat}
    (found : (origin = some o ∧ tableGet s.wg.nodes o ≠ none) ∨ (origin = none ∧ s.wg.homes[a] = some o)) :
    resolveOrigin s.wg a origin = some o := by
  rcases found with ⟨rfl, used⟩ | ⟨rfl, home⟩
  · have : inUse s.wg.nodes o = true := by simpa [inUse, Option.isSome_iff_ne_none] using used
    simp [resolveOrigin, this]
  · exact home

theorem recordOf_beginSearch (o n : Nat) : recordOf (beginSearch o) n =
    { cost := if n = o then 0 else 16777215, via := none, settled := false } := by
  by_cases same : n = o
  · subst same
    simp [recordOf, beginSearch, tableGet]
  · simp [recordOf, beginSearch, tableGet, same, Ne.symm same, unreachable]

section
variable {ds : Directory} {k n m : Nat}

theorem followForwards_reaches (chain : Forwarded ds k n m) {l : Listing} (listing : tableGet ds.listings m = some l)
    (stands : l.status ≠ .relocated) {hops : Nat} (enough : k ≤ hops) (r : Bool) :
    followForwards ds hops n r = (some m, r || decide (0 < k)) := by
  induction chain generalizing hops r with
  | here n =>
    unfold followForwards
    simp [listing, stands]
  | hop k n f m l' listing' relocated forward _ ih =>
    obtain ⟨h, rfl⟩ : ∃ h, hops = h + 1 := ⟨hops - 1, by omega⟩
    unfold followForwards
    simp [listing', relocated, forward, ih listing (Nat.le_of_succ_le_succ enough)]

theorem followForwards_fails (chain : Forwarded ds k n m) {hops : Nat} (enough : k ≤ hops)
    (fails : tableGet ds.listings m = none ∨ ∃ l, tableGet ds.listings m = some l ∧ l.status = .relocated
      ∧ (k = hops ∨ l.forward = none)) (r : Bool) :
    followForwards ds hops n r = (none, r || decide (0 < k)) := by
  induction chain generalizing hops r with
  | here n =>
    unfold followForwards
    rcases fails with free | ⟨l, listing, relocated, rfl | nowhere⟩
    · simp [free]
    · simp [listing, relocated]
    · cases hops <;> simp [listing, relocated, nowhere]
  | hop k n f m l' listing' relocated' forward' _ ih =>
    obtain ⟨h, rfl⟩ : ∃ h, hops = h + 1 := ⟨hops - 1, by omega⟩
    have later : followForwards ds h f true = (none, true || decide (0 < k)) :=
      ih (Nat.le_of_succ_le_succ enough)
        (fails.imp_right fun ⟨l, listing, relocated, ends⟩ => ⟨l, listing, relocated, ends.imp_left (by omega)⟩) true
    unfold followForwards
    simp [listing', relocated', forward', later]

end

/-! ### What the engine begins -/

/-- A grant begins with the origin, and then with the walk or the target. -/
theorem routeStarted_startRoute (s : State) (e : QueryEntry) (target : Target) (profile : Profile) (origin : Option Nat) :
    RouteStarted s e target profile origin (startRoute s e target profile origin) where
  noOrigin := fun fails => by
    unfold startRoute
    rw [resolveOrigin_eq_none fails]
    refine ⟨rfl, _, rfl, rfl, rfl, rfl, rfl, rfl, rfl, rfl, ?_⟩
    by_cases active : s.eu.unit = .active <;> simp [active]
  resolved := fun o found => by
    have resolves := resolveOrigin_eq_some found
    refine ⟨fun active => ?_, fun inactive => ?_⟩
    · unfold startRoute
      rw [resolves]
      simp [active]
    · have stays : (s.eu.unit == .active) = false := by simpa using inactive
      refine ⟨fun lost => ?_, fun found => ?_⟩
      · unfold startRoute
        rw [resolves]
        simp [stays, lost]
      · have some_target : (resolveTarget s.ds s.wg target).targets.isEmpty = false := by simpa using found
        have begun : startRoute s e target profile origin =
            { work := some
                { addr := e.addr, tag := e.tag, phase := .searching, profile := profile, origin := some o
                  targets := (resolveTarget s.ds s.wg target).targets
                  finalListing := (resolveTarget s.ds s.wg target).finalListing
                  relocated := (resolveTarget s.ds s.wg target).relocated, settles := 0, limit := s.config.effortLimit
                  outcome := none, reached := none, stands := 0, taken := [] }
              search := beginSearch o } := by
          unfold startRoute
          rw [resolves]
          simp [stays, some_target]
        rw [begun]
        exact ⟨rfl, rfl, rfl, recordOf_beginSearch o⟩

theorem grantRoute_granted {s : State} {e : QueryEntry} {target : Target} {profile : Profile} {origin : Option Nat}
    (may : routeMayGrant s = true) (oldest : oldestQueued isRoute s.qt = some e)
    (query : e.query = .route target profile origin) : grantRoute s = { s with
      qt := { entries := s.qt.entries.map fun f => if f.addr = e.addr ∧ f.tag = e.tag then
                { f with state := .working, epoch := some s.ec.epoch } else f }
      re := startRoute s e target profile origin } := by
  unfold grantRoute
  rw [if_pos may, oldest]
  simp only [query, updateEntry, isEntry_iff]

/-! ### Relaxation forward (R133) -/

theorem relaxForward_none {c : Configuration} {profile : Profile} {wg : Graph} {p m : Nat} {x : Search}
    (free : tableGet wg.segments m = none) : relaxForward c profile wg p m x = x := by
  rw [relaxForward, free]

theorem relaxForward_some {c : Configuration} {profile : Profile} {wg : Graph} {p m : Nat} {x : Search} {g : Segment}
    (segment : tableGet wg.segments m = some g) : relaxForward c profile wg p m x =
      if permitted profile g p (otherEnd g p) = true
      then offer ((recordOf x p).cost + segmentCost c profile wg g) m (otherEnd g p) x else x := by
  rw [relaxForward, segment]

/-! ### An entry becomes READY -/

/-- Among the entries after a grant, one that was not QUEUED stands as it was. -/
theorem findEntry_of_granted {u t : State} (granted : Granted u t) {a : Addr} {tag : Tag} {e : QueryEntry}
    (found : findEntry u.qt a tag = some e) (other : e.state ≠ .queued) : findEntry t.qt a tag = some e := by
  have kept : (if (routeOpen u ∧ oldestWaiting true u = some e) ∨ (findOpen u ∧ oldestWaiting false u = some e) then
      { e with state := .working, epoch := some u.ec.epoch } else e) = e := by
    refine if_neg ?_
    have waits : ∀ route, oldestWaiting route u ≠ some e := fun route chosen => by
      have queued := List.find?_some chosen
      simp only [Bool.and_eq_true, beq_iff_eq] at queued
      exact other queued.1
    rintro (⟨-, chosen⟩ | ⟨-, chosen⟩)
    · exact waits true chosen
    · exact waits false chosen
  have keys : (isEntry a tag ∘ fun e => if (routeOpen u ∧ oldestWaiting true u = some e)
      ∨ (findOpen u ∧ oldestWaiting false u = some e) then { e with state := .working, epoch := some u.ec.epoch } else e)
      = isEntry a tag := by
    funext f
    rw [Function.comp_apply]
    split <;> rfl
  rw [findEntry, granted.entries, List.find?_map, keys]
  unfold findEntry at found
  rw [found, Option.map_some, kept]

theorem findEntry_readied {s : State} {a : Addr} {tag : Tag} {e : QueryEntry} (found : findEntry s.qt a tag = some e)
    (hold : Nat) (answer : Answer) : findEntry { entries := s.qt.entries.map (readied hold answer a tag) } a tag =
      some { e with state := .ready hold, answer := some answer } := by
  obtain ⟨-, addr, hasTag⟩ := findEntry_some found
  have keys : isEntry a tag ∘ readied hold answer a tag = isEntry a tag := by
    funext f
    rw [Function.comp_apply, readied]
    split <;> rfl
  unfold findEntry at found
  rw [findEntry, List.find?_map, keys, found, Option.map_some, readied, if_pos ((isEntry_iff a tag e).2 ⟨addr, hasTag⟩)]

theorem map_readied (entries : List QueryEntry) (hold : Nat) (answer : Answer) (a : Addr) (tag : Tag) :
    entries.map (readied hold answer a tag) = entries.map fun f => if f.addr = a ∧ f.tag = tag then
      { f with state := .ready hold, answer := some answer } else f :=
  List.map_congr_left fun f _ => by simp only [readied, isEntry_iff]

theorem distinct_readied {entries : List QueryEntry} (distinct : TagsDistinct entries) (hold : Nat) (answer : Answer)
    (a : Addr) (tag : Tag) : TagsDistinct (entries.map (readied hold answer a tag)) := by
  rw [TagsDistinct, List.pairwise_map]
  refine distinct.imp fun {x y} apart => ?_
  unfold readied
  split <;> split <;> exact apart

theorem haltCause_working {s : State} {a : Addr} {tag : Tag} {e : QueryEntry} (found : findEntry s.qt a tag = some e)
    (working : e.state = .working) : haltCause s a tag = none := by
  rw [haltCause, found]
  simp only [working]

theorem routeBoundary_goes {s : State} {w : RouteWork} (goes : haltCause s w.addr w.tag = none) (f : State → State) :
    routeBoundary w f s = f s := by
  rw [routeBoundary, goes]

theorem findBoundary_goes {s : State} {w : FindWork} (goes : haltCause s w.addr w.tag = none) (f : State → State) :
    findBoundary w f s = f s := by
  rw [findBoundary, goes]

/-! ### The credit (R18) -/

theorem creditAnswer_found {h : RouteHeader} {s : State} {n : Nat} (found : h.status = .found)
    (final : h.finalListing = some n) (counts : s.config.frozen = false) : creditAnswer h s =
      { s with ds := { s.ds with listings := tableUpdate s.ds.listings n credit } } := by
  simp [creditAnswer, final, found, counts]

theorem creditAnswer_none {h : RouteHeader} {s : State}
    (nothing : h.status ≠ .found ∨ h.finalListing = none ∨ s.config.frozen = true) : creditAnswer h s = s := by
  unfold creditAnswer
  split
  next n final =>
    refine if_neg ?_
    rintro ⟨found, counts⟩
    rcases nothing with lost | noFinal | frozen
    · exact lost found
    · simp [final] at noFinal
    · simp [counts] at frozen
  next => rfl

end Sys2Proof.Proofs
end

section
/-! PROOF. The statement of the Route Engine, from its parts. -/

namespace Sys2Proof.Proofs
open Sys2Proof.Machine Sys2Proof.Safety Sys2Proof.Laws

/-! ### The end of FORMING (R113, R143) -/

/-- The part with the answer of a route entry formed and the engine idle, before what follows. -/
def routeFormed (w : RouteWork) (e : QueryEntry) (s : State) : State :=
  let answer := formRoute s w (e.epoch.getD 0)
  { s with
    qt := { entries := s.qt.entries.map (readied s.config.holdTime (.route answer.1 answer.2) w.addr w.tag) }
    re := { work := none, search := { s.re.search with frontier := [] } }
    ds := (creditAnswer answer.1 s).ds
    kl := (updateStation w.addr (fillSlot e.slot w.tag (.routeReady answer.1)) s).kl }

/-- The credit reads and writes the listings, and reads whether popularity is frozen. -/
theorem creditAnswer_eq (h : RouteHeader) {s v : State} (ds : v.ds = s.ds) (config : v.config = s.config) :
    creditAnswer h v = { v with ds := (creditAnswer h s).ds } := by
  unfold creditAnswer
  cases h.finalListing with
  | none => dsimp only; rw [← ds]
  | some n =>
    dsimp only
    by_cases counts : h.status = .found ∧ s.config.frozen = false
    · rw [if_pos (by rw [config]; exact counts), if_pos counts]
      simp only [ds]
    · rw [if_neg (by rw [config]; exact counts), if_neg counts, ← ds]

theorem finishRoute_eq {w : RouteWork} {e : QueryEntry} {s : State} (found : findEntry s.qt w.addr w.tag = some e) :
    finishRoute w s = afterRouteIdle (routeFormed w e s) := by
  unfold finishRoute
  rw [found]
  dsimp only
  congr 1
  rw [completeEntry_eq found]
  exact (congrArg routeIdle (creditAnswer_eq _ (s := s)
    (v := { updateStation w.addr (fillSlot e.slot w.tag (.routeReady (formRoute s w (e.epoch.getD 0)).1)) s with
      qt := { entries := s.qt.entries.map (readied s.config.holdTime
        (.route (formRoute s w (e.epoch.getD 0)).1 (formRoute s w (e.epoch.getD 0)).2) w.addr w.tag) } })
    rfl rfl)).trans rfl

theorem exec_routeFormed {w : RouteWork} {e : QueryEntry} {s : State} (run : s.resetHeld = false)
    (work : s.re.work = some w) (forming : w.phase = .forming) (found : findEntry s.qt w.addr w.tag = some e)
    (working : e.state = .working) : exec .routeFormingEnd s = .next (afterRouteIdle (routeFormed w e s)) := by
  rw [exec_routeFormingEnd run work forming, routeBoundary_goes (haltCause_working found working), finishRoute_eq found]

/-- After FORMING the route engine is idle or works on another entry. -/
theorem routeFormed_work {w : RouteWork} {e : QueryEntry} {s : State} (table : TableInv s)
    (found : findEntry s.qt w.addr w.tag = some e) :
    (afterRouteIdle (routeFormed w e s)).re.work = none
      ∨ ∃ w', (afterRouteIdle (routeFormed w e s)).re.work = some w' ∧ ¬(w'.addr = w.addr ∧ w'.tag = w.tag) := by
  have idle : (beginBuildIfDue (routeFormed w e s)).re.work = none := by simp [routeFormed]
  have qt : (beginBuildIfDue (routeFormed w e s)).qt = (routeFormed w e s).qt := by simp
  rw [afterRouteIdle, grant_re]
  refine (grantRoute_work idle).imp_right fun ⟨w', work', f, mem, queued, addr, hasTag⟩ =>
    ⟨w', work', fun ⟨sameAddr, sameTag⟩ => ?_⟩
  rw [qt] at mem
  have ready := findEntry_readied found s.config.holdTime
    (.route (formRoute s w (e.epoch.getD 0)).1 (formRoute s w (e.epoch.getD 0)).2)
  obtain ⟨mem', addr', tag'⟩ := findEntry_some ready
  have same := eq_of_tag (distinct_readied table.distinct _ _ _ _) mem mem' (addr.trans (sameAddr.trans addr'.symm))
    (hasTag.trans (sameTag.trans tag'.symm))
  rw [same] at queued
  simp at queued

/-! ### The search and the walk -/

theorem searchStep_ends {w : RouteWork} {s : State} {outcome : RouteStatus}
    (ends : searchEnds w s.re.search = some outcome) : searchStep w s = routeEnds outcome none w s := by
  rw [searchStep, ends]

theorem searchStep_goes {w : RouteWork} {s : State} (goes : searchEnds w s.re.search = none)
    (works : haltCause s w.addr w.tag = none) : searchStep w s = settleStep w s := by
  rw [searchStep, goes]
  exact routeBoundary_goes works _

theorem settleStep_cons {w : RouteWork} {s : State} {cost n : Nat} {rest : List (Nat × Nat)}
    (frontier : s.re.search.frontier = (cost, n) :: rest) : settleStep w s =
      if n ∈ w.targets then routeEnds .found (some n) { w with settles := w.settles + 1 }
        { s with re := { s.re with search := settleFirst n rest s.re.search } }
      else withRouteWork { w with settles := w.settles + 1 }
        { s with re := { s.re with
          search := relaxAll (relaxForward s.config w.profile s.wg n) (adjacencyOf s.wg n)
            (settleFirst n rest s.re.search) } } := by
  unfold settleStep
  rw [frontier]
  simp only [List.contains_iff_mem]

/-- Settles O57, a lemma for each clause. -/
theorem routeEngineSteps : Obligations.RouteEngineSteps := by
  refine ⟨fun e target profile origin s => ⟨routeStarted_startRoute s e target profile origin,
      fun idle steady may oldest query => grantRoute_granted ((routeMayGrant_iff s).2 ⟨idle, steady, may⟩) oldest query⟩,
    fun ds wg n m k => ⟨fun l chain near listing stands => ?_, fun chain near fails => ?_, fun used => ?_, fun free => ?_,
      ⟨_, rfl, fun sorted j => ?_⟩⟩,
    fun c profile wg p m x => ⟨relaxForward_none, fun g segment shut => ?_, fun g segment open' inv => ?_⟩,
    fun w s run work => ⟨fun phase frontier => ?_, fun phase frontier limit => ?_,
      fun cost n rest phase frontier goes works => ?_, fun phase works => ⟨fun zero => ?_, fun positive start => ?_,
        fun m g positive via segment => ?_⟩, routeAnswered_formRoute s w, fun e table forming found working => ?_⟩⟩
  · simp [resolveTarget, followForwards_reaches chain listing stands near, listing]
  · have ends := followForwards_fails chain near
      (fails.imp_right fun ⟨l, listing, relocated, ends⟩ => ⟨l, listing, relocated, ends⟩) false
    simp [resolveTarget, ends]
  · have : inUse wg.nodes n = true := by simpa [inUse, Option.isSome_iff_ne_none] using used
    simp [resolveTarget, this]
  · simp [resolveTarget, inUse, free]
  · simp only [amenityNodes, List.mem_map, List.mem_filter, beq_iff_eq]
    constructor
    · rintro ⟨⟨i, x⟩, ⟨mem, kind⟩, rfl⟩
      exact ⟨x, tableGet_of_mem sorted mem, kind⟩
    · rintro ⟨x, node, kind⟩
      exact ⟨(j, x), ⟨mem_of_tableGet node, kind⟩, rfl⟩
  · rw [relaxForward_some segment, if_neg (by simp [shut])]
  · rw [relaxForward_some segment, if_pos open']
    exact offer_relaxed _ _ _ inv
  · rw [exec_routeSearchSettle run work phase, searchStep_ends (outcome := .noRoute) (by simp [searchEnds, frontier])]
    rfl
  · rw [exec_routeSearchSettle run work phase,
      searchStep_ends (outcome := .effortLimit) (by simp [searchEnds, frontier, limit])]
    rfl
  · have onward : searchEnds w s.re.search = none := by simp [searchEnds, frontier, goes]
    have settles : exec .routeSearchSettle s = .next (settleStep w s) := by
      rw [exec_routeSearchSettle run work phase, searchStep_goes onward works]
    rw [settles, settleStep_cons frontier]
    exact ⟨fun target => by rw [if_pos target]; rfl, fun other => by rw [if_neg other]; rfl⟩
  · rw [exec_exitTreeWalkStep run work phase, routeBoundary_goes works, walkStep]
    rw [if_pos zero]
    rfl
  · rw [exec_exitTreeWalkStep run work phase, routeBoundary_goes works, walkStep]
    rw [if_neg positive, start]
    rfl
  · rw [exec_exitTreeWalkStep run work phase, routeBoundary_goes works, walkStep]
    rw [if_neg positive, via]
    simp only [segment]
  · obtain ⟨records, ec, ep, kl⟩ := afterRouteIdle_frame (routeFormed w e s)
    obtain ⟨service, -, config, ds, wg, lm, cs, -⟩ := records
    have station : ∀ b, stationAt (afterRouteIdle (routeFormed w e s)) b =
        stationAt (updateStation w.addr (fillSlot e.slot w.tag (.routeReady (formRoute s w (e.epoch.getD 0)).1)) s) b :=
      fun b => by rw [stationAt, kl]; rfl
    have formed : routeFormed w e s = { s with
        qt := { entries := s.qt.entries.map fun f => if f.addr = w.addr ∧ f.tag = w.tag then
          { f with state := .ready s.config.holdTime
                   answer := some (.route (formRoute s w (e.epoch.getD 0)).1 (formRoute s w (e.epoch.getD 0)).2) }
          else f }
        re := { work := none, search := { s.re.search with frontier := [] } }
        ds := (afterRouteIdle (routeFormed w e s)).ds, kl := (afterRouteIdle (routeFormed w e s)).kl } := by
      rw [ds, kl, ← map_readied]
      rfl
    have idled : RouteIdled (routeFormed w e s) (afterRouteIdle (routeFormed w e s)) :=
      afterRouteIdle_idled run (distinct_readied table.distinct _ _ _ _)
    have qt : (beginBuildIfDue (routeFormed w e s)).qt = (routeFormed w e s).qt := by simp
    have stays := (findEntry_of_granted (grant_granted (s := beginBuildIfDue (routeFormed w e s))
      (by rw [qt]; exact distinct_readied table.distinct _ _ _ _))
      (by rw [qt]; exact findEntry_readied found s.config.holdTime
            (.route (formRoute s w (e.epoch.getD 0)).1 (formRoute s w (e.epoch.getD 0)).2)) (by simp))
    have found_iff : (formRoute s w (e.epoch.getD 0)).1.status = .found ↔ w.outcome = some .found := by
      show w.outcome.getD .noRoute = .found ↔ _
      cases w.outcome <;> simp
    refine ⟨_, exec_routeFormed run work forming found working, fun b other => ?_, ⟨_, stays, rfl, rfl, rfl⟩, ?_,
      fun n outcome final counts => ?_, fun nothing => ?_, routeFormed_work table found, ?_, service, config, wg, lm, cs, ec,
      ep, ?_⟩
    · rw [station, stationAt_updateStation_other _ _ other]
    · rw [station, stationAt_updateStation_same]
      rfl
    · rw [ds]
      have credited := creditAnswer_found (s := s) (found_iff.2 outcome) final counts
      have at_n : (routeFormed w e s).ds = { s.ds with listings := tableUpdate s.ds.listings n credit } :=
        congrArg State.ds credited
      rw [at_n]
      refine ⟨List.map_congr_left fun x _ => ?_, rfl⟩
      by_cases same : x.1 = n <;> simp [same, credit]
    · have credited := creditAnswer_none (s := s) (nothing.imp_left (mt found_iff.1))
      have unchanged : (routeFormed w e s).ds = s.ds :=
        show (creditAnswer (formRoute s w (e.epoch.getD 0)).1 s).ds = s.ds by rw [credited]
      exact ds.trans unchanged
    · rw [← formed]
      exact idled
    · rw [kl]
      rfl

end Sys2Proof.Proofs
end

section
/-! PROOF. The Find Engine: matching, the ranked result list, the scan and the answer. -/

namespace Sys2Proof.Proofs
open Sys2Proof.Machine Sys2Proof.Safety Sys2Proof.Laws

/-! ### Matching (R151, R152) -/

/-- What is left of a key, itself at a word start or not, matches where the prefix stands at a word start of it. -/
theorem matchesFrom_iff (typed : List Nat) (start : Bool) (key : List Nat) : matchesFrom typed start key = true ↔
    ∃ i, i < key.length ∧ ((i = 0 ∧ start = true) ∨ (i ≠ 0 ∧ key[i - 1]? = some 0)) ∧ typed <+: key.drop i := by
  induction key generalizing start with
  | nil => simp [matchesFrom]
  | cons x rest ih =>
    rw [matchesFrom, Bool.or_eq_true, Bool.and_eq_true, List.isPrefixOf_iff_prefix, ih]
    constructor
    · rintro (⟨starts, isPrefix⟩ | ⟨i, small, word, isPrefix⟩)
      · exact ⟨0, by simp, .inl ⟨rfl, starts⟩, isPrefix⟩
      · refine ⟨i + 1, by simpa using small, .inr ⟨by omega, ?_⟩, isPrefix⟩
        rcases word with ⟨rfl, gap⟩ | ⟨later, gap⟩
        · simpa using gap
        · obtain ⟨j, rfl⟩ := Nat.exists_eq_succ_of_ne_zero later
          exact gap
    · rintro ⟨i, small, word, isPrefix⟩
      cases i with
      | zero => exact .inl ⟨by simpa using word, isPrefix⟩
      | succ i =>
        refine .inr ⟨i, by simpa using small, ?_, isPrefix⟩
        obtain ⟨_, gap⟩ := word.resolve_left (by simp)
        cases i with
        | zero => exact .inl ⟨rfl, by simpa using gap⟩
        | succ i => exact .inr ⟨by simp, gap⟩

theorem prefixMatches_iff (typed key : List Nat) : prefixMatches typed key = true ↔
    ∃ i, i < key.length ∧ (i = 0 ∨ key[i - 1]? = some 0) ∧ typed <+: key.drop i := by
  rw [prefixMatches, matchesFrom_iff]
  refine exists_congr fun i => and_congr_right' (and_congr_left' ?_)
  by_cases first : i = 0 <;> simp [first]

theorem isMatch_iff (l : Lookup) (clockSet : Bool) (minute : Nat) (x : Listing) : isMatch l clockSet minute x = true ↔
    (∀ typed, l.typed = some typed → prefixMatches typed x.name = true)
      ∧ (∀ c, l.category = some c → c ∈ x.categories) ∧ (∀ f, l.floor = some f → x.floor = f)
      ∧ (l.openOnly = true → openNow x clockSet minute = true) := by
  unfold isMatch
  rw [Bool.and_eq_true, Bool.and_eq_true, Bool.and_eq_true, and_assoc, and_assoc]
  refine and_congr ?_ (and_congr ?_ (and_congr ?_ ?_))
  · cases l.typed <;> simp
  · cases l.category <;> simp
  · cases l.floor <;> simp
  · cases l.openOnly <;> simp

/-! ### The ranked result list (R153) -/

theorem rankBefore_iff (key : Nat → List Nat) (a b : Nat × Nat) : rankBefore key a b = true ↔
    b.2 < a.2 ∨ a.2 = b.2 ∧ directoryBefore (key a.1, a.1) (key b.1, b.1) = true := by
  unfold rankBefore
  split
  next more => simp [more]
  next notMore =>
    split
    next less => simp [notMore, less.ne]
    next notLess => simp [show a.2 = b.2 by omega]

theorem rankBefore_eq (key : Nat → List Nat) (a b : Nat × Nat) : rankBefore key a b =
    (decide (b.2 < a.2) || (a.2 == b.2 && directoryBefore (key a.1, a.1) (key b.1, b.1))) := by
  rw [Bool.eq_iff_iff, rankBefore_iff]
  simp

theorem rankBefore_trans {key : Nat → List Nat} {a b c : Nat × Nat} (h : rankBefore key a b = true)
    (h' : rankBefore key b c = true) : rankBefore key a c = true := by
  rw [rankBefore_iff] at *
  rcases h with more | ⟨same, before⟩ <;> rcases h' with more' | ⟨same', before'⟩
  · exact .inl (by omega)
  · exact .inl (by omega)
  · exact .inl (by omega)
  · exact .inr ⟨same.trans same', directoryBefore_trans before before'⟩

theorem rankBefore_asymm {key : Nat → List Nat} {a b : Nat × Nat} (h : rankBefore key a b = true) :
    rankBefore key b a = false := by
  rw [← Bool.not_eq_true, rankBefore_iff]
  rw [rankBefore_iff] at h
  rcases h with more | ⟨same, before⟩
  · omega
  · simp [same, directoryBefore_asymm before]

theorem rankBefore_total {key : Nat → List Nat} {a b : Nat × Nat} (ne : a.1 ≠ b.1) (h : rankBefore key a b = false) :
    rankBefore key b a = true := by
  rw [← Bool.not_eq_true, rankBefore_iff] at h
  rw [rankBefore_iff]
  obtain ⟨notMore, notFirst⟩ := not_or.1 h
  by_cases same : a.2 = b.2
  · exact .inr ⟨same.symm, directoryBefore_total (fun eq => ne (congrArg Prod.snd eq))
      (by simpa using fun before => notFirst ⟨same, before⟩)⟩
  · exact .inl (by omega)

/-- In a ranked list a match stands after those that rank before it, the others keeping their places. -/
theorem rankInsert_eq {key : Nat → List Nat} {e : Nat × Nat} {results : List (Nat × Nat)}
    (ranked : results.Pairwise fun a b => rankBefore key a b = true) (fresh : ∀ f ∈ results, f.1 ≠ e.1) :
    rankInsert key e results = results.filter (fun f => rankBefore key f e)
      ++ e :: results.filter (fun f => rankBefore key e f) := by
  induction results with
  | nil => rfl
  | cons f rest ih =>
    obtain ⟨later, ranked'⟩ := List.pairwise_cons.1 ranked
    obtain ⟨ne, fresh'⟩ := List.forall_mem_cons.1 fresh
    rw [rankInsert]
    by_cases h : rankBefore key e f = true
    · have after : ∀ x ∈ f :: rest, rankBefore key e x = true :=
        List.forall_mem_cons.2 ⟨h, fun x mem => rankBefore_trans h (later x mem)⟩
      have none_before : (f :: rest).filter (fun x => rankBefore key x e) = [] :=
        List.filter_eq_nil_iff.2 fun x mem => by simp [rankBefore_asymm (after x mem)]
      rw [if_pos h, none_before, List.filter_eq_self.2 after, List.nil_append]
    · have before : rankBefore key f e = true := rankBefore_total ne.symm (by simpa using h)
      rw [if_neg h, ih ranked' fresh']
      simp [before, h]

/-! ### The arbiter and the scan (R110, R111, R149, R150) -/

theorem grantFind_takes {e : QueryEntry} {l : Lookup} {browse : Bool} {s : State} (idle : s.fe.work = none)
    (steady : s.ec.turn = .steady) (oldest : oldestQueued (fun f => !isRoute f) s.qt = some e)
    (lookup : lookupOf e = some (l, browse)) : grantFind s = { s with
      qt := { entries := s.qt.entries.map fun f => if f.addr = e.addr ∧ f.tag = e.tag then
                { f with state := .working, epoch := some s.ec.epoch } else f }
      fe := { work := some (scanBegun s e l browse) } } := by
  unfold grantFind
  rw [if_pos (by simp [idle, steady]), oldest]
  dsimp only
  rw [lookup]
  simp only [updateEntry, isEntry_iff]
  rfl

theorem scanListing_eq {w : FindWork} {n : Nat} {l : Listing} {s : State} (listing : tableGet s.ds.listings n = some l) :
    scanListing w n s = withFindWork (if isMatch w.lookup w.clockSet w.minute l then
          { w with position := w.position + 1, total := w.total + 1
                   results := offerMatch (nameOf s.ds) (n, l.popularity) w.results }
        else { w with position := w.position + 1 }) s := by
  unfold scanListing
  rw [listing]
  dsimp only
  split <;> rfl

theorem resultOf_eq {ds : Directory} {w : FindWork} {n : Nat} {l : Listing} (listing : tableGet ds.listings n = some l) :
    resultOf ds w n = resultEntry w n l := by
  rw [resultOf, listing]
  rfl

/-! ### The end of FORMING (R113, R156) -/

/-- The part with the answer of a find entry formed and the engine idle, before the arbiters grant. -/
def findFormed (w : FindWork) (e : QueryEntry) (s : State) : State :=
  let answer := formFind s w (e.epoch.getD 0)
  { s with
    qt := { entries := s.qt.entries.map (readied s.config.holdTime (.find answer.1 answer.2) w.addr w.tag) }
    fe := { work := none }
    kl := (updateStation w.addr (fillSlot e.slot w.tag (.findReady answer.1)) s).kl }

theorem exec_findFormed {w : FindWork} {e : QueryEntry} {s : State} (run : s.resetHeld = false)
    (work : s.fe.work = some w) (forming : w.forming = true) (found : findEntry s.qt w.addr w.tag = some e)
    (working : e.state = .working) : exec .findFormingEnd s = .next (grant (findFormed w e s)) := by
  rw [exec_findFormingEnd run work forming, findBoundary_goes (haltCause_working found working), finishFind, found]
  dsimp only
  rw [completeEntry_eq found]
  rfl

/-- Settles O58, a lemma for each clause. -/
theorem findEngineSteps : Obligations.FindEngineSteps := by
  refine ⟨fun e l browse s idle steady oldest query => grantFind_takes idle steady oldest ?_, prefixMatches_iff, isMatch_iff,
    fun key e results => ?_, fun w epoch s => ⟨?_, ?_, fun i n count l hit listing => ?_⟩,
    fun w s run work table => ⟨fun scanning past => ?_, fun n l scanning place works listing => ?_,
      fun e forming found working => ?_⟩⟩
  · rcases query with ⟨query, rfl⟩ | ⟨query, rfl⟩ <;> simp [lookupOf, query]
  · intro before ranked fresh
    have same : ∀ a b, before a b = rankBefore key a b := fun a b => (rankBefore_eq key a b).symm
    simp only [same] at ranked ⊢
    rw [offerMatch, rankInsert_eq ranked fresh]
  · simp only [formFind, List.length_map]
    rfl
  · simp [formFind]
  · simp [formFind, hit, resultOf_eq listing]
  · rw [exec_findScanStep run work scanning, scanStep, List.getElem?_eq_none past]
  · rw [exec_findScanStep run work scanning, scanStep_inside place, findBoundary_goes works, scanListing_eq listing]
  · have distinct : TagsDistinct (findFormed w e s).qt.entries := distinct_readied table.distinct _ _ _ _
    obtain ⟨-, -, -, ds, wg, lm, cs, ec, -, kl, ep, -⟩ := @grant_frame (findFormed w e s)
    have station : ∀ b, stationAt (grant (findFormed w e s)) b =
        stationAt (updateStation w.addr (fillSlot e.slot w.tag (.findReady (formFind s w (e.epoch.getD 0)).1)) s) b :=
      fun b => by rw [stationAt, kl]; rfl
    have formed : findFormed w e s = { s with
        qt := { entries := s.qt.entries.map fun f => if f.addr = w.addr ∧ f.tag = w.tag then
          { f with state := .ready s.config.holdTime
                   answer := some (.find (formFind s w (e.epoch.getD 0)).1 (formFind s w (e.epoch.getD 0)).2) }
          else f }
        fe := { work := none }, kl := (grant (findFormed w e s)).kl } := by
      rw [kl, ← map_readied]
      rfl
    have granted : Granted (findFormed w e s) (grant (findFormed w e s)) := grant_granted distinct
    have stays := findEntry_of_granted granted (findEntry_readied found s.config.holdTime
      (.find (formFind s w (e.epoch.getD 0)).1 (formFind s w (e.epoch.getD 0)).2)) (by simp)
    refine ⟨_, exec_findFormed run work forming found working, fun b other => ?_, ⟨_, stays, rfl, rfl, rfl⟩, ?_, ?_, ds,
      wg, lm, cs, ec, ep, ?_⟩
    · rw [station, stationAt_updateStation_other _ _ other]
    · rw [station, stationAt_updateStation_same]
      rfl
    · rw [← formed]
      exact granted
    · rw [kl]
      rfl

end Sys2Proof.Proofs
end

section
/-! PROOF. The records that the READ commands return (R22, R45, R177, R192): their layouts and their commands. -/

namespace Sys2Proof.Proofs
open Sys2Proof.Machine Sys2Proof.Safety Sys2Proof.Laws

/-! ### Fields of many bytes -/

theorem wordAt_be16 (n : Nat) (d : List Byte) : wordAt (be16 n ++ d) 0 = n % 65536 := by
  simp [wordAt, be16, word_be16]

/-- A field of single bytes, behind whatever comes before it. -/
theorem bytesAt_symbols {before : List Byte} {i : Nat} (h : before.length = i) (symbols : List Nat) (d : List Byte) :
    bytesAt (before ++ (symbols.map byteOf ++ d)) i symbols.length = symbols.map fun x => x % 256 := by
  refine List.ext_getElem (by simp [bytesAt]) fun j small _ => ?_
  have inside : j < symbols.length := by simpa [bytesAt] using small
  simp only [bytesAt, List.getElem_map, List.getElem_range, byteAt_skip h]
  simp [byteAt, List.getElem?_append_left, inside]

theorem length_flatten_be16 (numbers : List Nat) : (numbers.map be16).flatten.length = 2 * numbers.length := by
  simp [List.length_flatten, be16, Function.comp_def, Nat.mul_comm]

theorem wordAt_numbers {numbers : List Nat} {j : Nat} (inside : j < numbers.length) (d : List Byte) :
    wordAt ((numbers.map be16).flatten ++ d) (2 * j) = numbers[j] % 65536 := by
  induction numbers generalizing j with
  | nil => simp at inside
  | cons n rest ih =>
    rw [List.map_cons, List.flatten_cons, List.append_assoc]
    cases j with
    | zero => exact wordAt_be16 n _
    | succ j =>
      rw [show 2 * (j + 1) = 2 + 2 * j by omega, wordAt_skip (show (be16 n).length = 2 from rfl)]
      exact ih (by simpa using inside)

/-- A field of numbers of two bytes, behind whatever comes before it. -/
theorem wordsAt_numbers {before : List Byte} {i : Nat} (h : before.length = i) (numbers : List Nat) (d : List Byte) :
    wordsAt (before ++ ((numbers.map be16).flatten ++ d)) i numbers.length = numbers.map fun n => n % 65536 := by
  refine List.ext_getElem (by simp [wordsAt]) fun j small _ => ?_
  have inside : j < numbers.length := by simpa [wordsAt] using small
  simp only [wordsAt, List.getElem_map, List.getElem_range, wordAt_skip h, wordAt_numbers inside]

theorem byteAt_symbol {before : List Byte} {i : Nat} (h : before.length = i) (n : Nat) (d : List Byte) :
    byteAt (before ++ (byteOf n :: d)) i = n % 256 := by simp [byteAt_start h]

/-! ### The records -/

/-- The thirteen bytes of a listing ahead of its categories. -/
def listingHead (n : Nat) (l : Listing) (isOpen : Bool) : List Byte :=
  be16 n ++ [byteOf l.floor, byteOf (statusCode l.status)] ++ be16OrNone l.forward
    ++ be16OrNone (l.hours.map Hours.opens) ++ be16OrNone (l.hours.map Hours.closes) ++ be16 l.popularity
    ++ [byteOf (flagsByte [isOpen, l.reachStandard, l.reachStepFree])]

/-- The bytes of a listing up to its entrance count. -/
def listingUpToCategories (n : Nat) (l : Listing) (isOpen : Bool) : List Byte :=
  listingHead n l isOpen ++ byteOf l.categories.length :: l.categories.map byteOf

/-- The bytes of a listing up to the length of its name. -/
def listingUpToEntrances (n : Nat) (l : Listing) (isOpen : Bool) : List Byte :=
  listingUpToCategories n l isOpen ++ byteOf l.entrances.length :: (l.entrances.map be16).flatten

theorem length_listingUpToCategories (n : Nat) (l : Listing) (isOpen : Bool) :
    (listingUpToCategories n l isOpen).length = 14 + l.categories.length := by
  simp [listingUpToCategories, listingHead, be16, be16OrNone]; omega

theorem length_listingUpToEntrances (n : Nat) (l : Listing) (isOpen : Bool) :
    (listingUpToEntrances n l isOpen).length = 15 + l.categories.length + 2 * l.entrances.length := by
  rw [listingUpToEntrances, List.length_append, List.length_cons, length_listingUpToCategories, length_flatten_be16]; omega

/-- The record by its head and what follows. -/
theorem encodeListing_eq (n : Nat) (l : Listing) (isOpen : Bool) : encodeListing n l isOpen =
    listingHead n l isOpen ++ (byteOf l.categories.length :: (l.categories.map byteOf
      ++ byteOf l.entrances.length :: ((l.entrances.map be16).flatten
        ++ byteOf l.name.length :: l.name.map byteOf))) := by
  simp [encodeListing, listingHead]

theorem encodeListing_entrances (n : Nat) (l : Listing) (isOpen : Bool) : encodeListing n l isOpen =
    listingUpToCategories n l isOpen ++ (byteOf l.entrances.length :: ((l.entrances.map be16).flatten
      ++ byteOf l.name.length :: l.name.map byteOf)) := by
  simp [encodeListing_eq, listingUpToCategories]

theorem encodeListing_name (n : Nat) (l : Listing) (isOpen : Bool) : encodeListing n l isOpen =
    listingUpToEntrances n l isOpen ++ (byteOf l.name.length :: l.name.map byteOf) := by
  simp [encodeListing_entrances, listingUpToEntrances]

theorem listingBytes_encodeListing (n : Nat) (l : Listing) (isOpen : Bool) :
    ListingBytes n l isOpen (encodeListing n l isOpen) where
  size := by rw [encodeListing_name, List.length_append, length_listingUpToEntrances]; simp; omega
  number := by simp [wordAt, encodeListing_eq, listingHead, be16, word_be16]
  floor := by simp [encodeListing_eq, listingHead, be16]
  status := by cases h : l.status <;> simp [encodeListing_eq, listingHead, be16, statusCode, statusByte, h]
  forward := by simp [wordAt, encodeListing_eq, listingHead, be16, be16OrNone, word_be16]
  opens := by
    cases h : l.hours <;> simp [wordAt, encodeListing_eq, listingHead, be16, be16OrNone, word_be16, h]
  closes := by
    cases h : l.hours <;> simp [wordAt, encodeListing_eq, listingHead, be16, be16OrNone, word_be16, h]
  popularity := by simp [wordAt, encodeListing_eq, listingHead, be16, be16OrNone, word_be16]
  flags := by
    cases isOpen <;> cases h : l.reachStandard <;> cases h' : l.reachStepFree <;>
      simp [encodeListing_eq, listingHead, be16, be16OrNone, flagsByte, h, h']
  categoryCount := by rw [encodeListing_eq, byteAt_symbol (by simp [listingHead, be16, be16OrNone])]
  categories := by
    rw [encodeListing_eq, List.append_cons]
    exact bytesAt_symbols (by simp [listingHead, be16, be16OrNone]) _ _
  entranceCount := by rw [encodeListing_entrances, byteAt_symbol (length_listingUpToCategories n l isOpen)]
  entrances := by
    rw [encodeListing_entrances, List.append_cons]
    exact wordsAt_numbers (by simp [length_listingUpToCategories]; omega) _ _
  nameLength := by rw [encodeListing_name, byteAt_symbol (length_listingUpToEntrances n l isOpen)]
  name := by
    rw [encodeListing_name, List.append_cons, ← List.append_nil (l.name.map byteOf)]
    exact bytesAt_symbols (by simp [length_listingUpToEntrances]; omega) _ _

/-- The bytes of a node ahead of its adjacency list. -/
def nodeHead (n : Nat) (x : Node) : List Byte :=
  be16 n ++ [byteOf x.floor, byteOf (nodeKindCode x.kind), byteOf (nodeExtra x.kind)] ++ be16 x.x ++ be16 x.y
    ++ [byteOf x.adjacency.length]

theorem encodeNode_eq (n : Nat) (x : Node) :
    encodeNode n x = nodeHead n x ++ ((x.adjacency.map be16).flatten ++ []) := by
  simp [encodeNode, nodeHead]

theorem nodeBytes_encodeNode (n : Nat) (x : Node) : NodeBytes n x (encodeNode n x) where
  size := by rw [encodeNode_eq, List.append_nil, List.length_append, length_flatten_be16]; rfl
  number := by simp [wordAt, encodeNode_eq, nodeHead, be16, word_be16]
  floor := by simp [encodeNode_eq, nodeHead, be16]
  kind := by cases h : x.kind <;> simp [encodeNode_eq, nodeHead, be16, nodeKindCode, kindByte, h]
  extra := by
    cases h : x.kind with
    | exit state => cases state <;> simp [encodeNode_eq, nodeHead, be16, nodeExtra, exitStateCode, extraByte, h]
    | junction | entrance | kiosk | landing | amenity => simp [encodeNode_eq, nodeHead, be16, nodeExtra, extraByte, h]
  east := by simp [wordAt, encodeNode_eq, nodeHead, be16, word_be16]
  north := by simp [wordAt, encodeNode_eq, nodeHead, be16, word_be16]
  count := by simp [encodeNode_eq, nodeHead, be16]
  adjacency := by rw [encodeNode_eq]; exact wordsAt_numbers rfl _ _

theorem segmentBytes_encodeSegment (n : Nat) (g : Segment) : SegmentBytes n g (encodeSegment n g) where
  size := rfl
  number := by simp [wordAt, encodeSegment, be16, word_be16]
  endA := by simp [wordAt, encodeSegment, be16, word_be16]
  endB := by simp [wordAt, encodeSegment, be16, word_be16]
  length := by simp [wordAt, encodeSegment, be16, word_be16]
  kind := by cases h : g.kind <;> simp [encodeSegment, be16, segmentKindCode, segmentKindByte, h]
  direction := by cases h : g.direction <;> simp [encodeSegment, be16, directionCode, directionByte, h]
  state := by cases h : g.state <;> simp [encodeSegment, be16, segmentStateCode, segmentStateByte, h]
  weight := by simp [encodeSegment, be16]

theorem stationCode_eq (state : StationState) : stationStateCode state = stationCode state := by cases state <;> rfl

theorem stationCode_small (state : StationState) : stationCode state % 256 = stationCode state := by cases state <;> rfl

/-- A mask of groups fits a field of two bytes. -/
theorem groups_small (groups : BitVec 12) : groups.toNat % 65536 = groups.toNat := by
  have := groups.isLt
  omega

theorem stationBytes_encodeStation (home : Option Nat) (st : Station) :
    StationBytes home st (encodeStation home st) where
  size := rfl
  state := by simp [encodeStation, stationCode_eq, stationCode_small]
  homeNode := by simp [wordAt, encodeStation, be16, be16OrNone, word_be16]
  subscription := by simp [wordAt, encodeStation, be16, be16OrNone, word_be16, groups_small]
  pendingMask := by simp [wordAt, encodeStation, be16, be16OrNone, word_be16, groups_small]
  misses := by simp [encodeStation, be16, be16OrNone]
  attempts := by simp [encodeStation, be16, be16OrNone]
  filled := by simp [encodeStation, be16, be16OrNone]
  reserved := by simp [encodeStation, be16, be16OrNone]
  overruns := by simp [encodeStation, be16, be16OrNone]
  changed := by cases h : st.changed <;> simp [encodeStation, be16, be16OrNone, h]

/-- A mask of attention flags fits a byte. -/
theorem flags_small (flags : AttnFlags) : flags.toNat < 256 := flags.isLt.trans (by decide)

theorem length_encodeStatus {s : State} (labels : s.config.labels.length = 8) : (encodeStatus s).length = 69 := by
  simp [encodeStatus, length_encodeConfig, labels, be16, be16OrNone]

theorem statusBytes_encodeStatus (s : State) (labels : s.config.labels.length = 8) : StatusBytes s (encodeStatus s) where
  size := length_encodeStatus labels
  service := by cases h : s.service <;> simp [encodeStatus, serviceCode, h]
  turn := by
    cases h : s.ec.turn <;> cases h' : s.ec.wanted <;> cases h'' : s.ec.rollover <;>
      simp [encodeStatus, turnStateCode, flagsByte, h, h', h'']
  epoch := by simp [wordAt, encodeStatus, be16, word_be16]
  applied := by simp [encodeStatus, be16]
  rejected := by simp [encodeStatus, be16]
  firstReason := by
    cases h : s.ec.report.first with
    | none => simp [encodeStatus, be16, h]
    | some first => cases h' : first.2 <;> simp [encodeStatus, be16, reasonCode, h, h']
  firstNumber := by
    cases h : s.ec.report.first <;> simp [wordAt, encodeStatus, be16, word_be16, h]
  groups := by simp [wordAt, encodeStatus, be16, word_be16, groups_small]
  unreachableStandard := by simp [wordAt, encodeStatus, be16, word_be16]
  unreachableStepFree := by simp [wordAt, encodeStatus, be16, word_be16]
  staged := by simp [encodeStatus, be16]
  scheduled := by simp [encodeStatus, be16]
  flags := by simp [encodeStatus, be16, flags_small]
  mask := by simp [encodeStatus, be16, flags_small]
  congestedCount := by simp [wordAt, encodeStatus, be16, word_be16]
  alarm := by cases h : s.lm.tripped <;> simp [encodeStatus, be16, h]
  clock := by cases h : s.cs.clock.set <;> simp [encodeStatus, be16, h]
  minute := by cases h : s.cs.clock.set <;> simp [wordAt, encodeStatus, be16, be16OrNone, word_be16, h]
  seconds := by simp [encodeStatus, be16, be16OrNone]
  evacuation := by
    cases h : s.eu.latch <;> cases h' : s.eu.unit <;> cases h'' : s.eu.asserted <;> cases h3 : s.eu.tree.approximate <;>
      simp [encodeStatus, be16, be16OrNone, unitStateCode, h, h', h'', h3]
  config := configBytes_encodeConfig s.config rfl

/-! ### The commands -/

section
variable (hi lo : Byte) (n : Nat) (s : State)

theorem keepForming_actReadListing : keepForming (actReadListing [hi, lo] (held n s)) =
    if 1 ≤ 256 * hi.toNat + lo.toNat ∧ 256 * hi.toNat + lo.toNat ≤ 1023 then
      ((tableGet s.ds.listings (256 * hi.toNat + lo.toNat)).map fun l =>
        takenForming n (.listing (256 * hi.toNat + lo.toNat) l) s).getD (taken n (refusedWith 7) s)
    else taken n (refusedWith 1) s := by
  have number : wordAt [hi, lo] 0 = 256 * hi.toNat + lo.toNat := rfl
  simp only [actReadListing, number, listingNumber, Bool.and_eq_true, decide_eq_true_eq, held_frame]
  split
  · cases tableGet s.ds.listings (256 * hi.toNat + lo.toNat) <;> rfl
  · rfl

theorem keepForming_actReadNode : keepForming (actReadNode [hi, lo] (held n s)) =
    if 256 * hi.toNat + lo.toNat ≤ 2047 then
      ((tableGet s.wg.nodes (256 * hi.toNat + lo.toNat)).map fun x =>
        taken n (okReply (encodeNode (256 * hi.toNat + lo.toNat) x)) s).getD (taken n (refusedWith 7) s)
    else taken n (refusedWith 1) s := by
  have number : wordAt [hi, lo] 0 = 256 * hi.toNat + lo.toNat := rfl
  simp only [actReadNode, number, held_frame]
  split
  · cases tableGet s.wg.nodes (256 * hi.toNat + lo.toNat) <;> rfl
  · rfl

theorem keepForming_actReadSegment : keepForming (actReadSegment [hi, lo] (held n s)) =
    if 256 * hi.toNat + lo.toNat ≤ 4095 then
      ((tableGet s.wg.segments (256 * hi.toNat + lo.toNat)).map fun g =>
        taken n (okReply (encodeSegment (256 * hi.toNat + lo.toNat) g)) s).getD (taken n (refusedWith 7) s)
    else taken n (refusedWith 1) s := by
  have number : wordAt [hi, lo] 0 = 256 * hi.toNat + lo.toNat := rfl
  simp only [actReadSegment, number, held_frame]
  split
  · cases tableGet s.wg.segments (256 * hi.toNat + lo.toNat) <;> rfl
  · rfl

theorem keepForming_actReadStation (a : Addr) (c : Byte) :
    keepForming (actReadStation [byteOf (a.val / 16), byteOf (a.val % 16), c] (held n s)) =
      taken n (okReply (encodeStation s.wg.homes[a] (stationAt s a)))
        (if c.toNat % 2 = 1 then putStation a { stationAt s a with overruns := 0 } s else s) := by
  have option : byteAt [byteOf (a.val / 16), byteOf (a.val % 16), c] 2 = c.toNat := rfl
  simp only [actReadStation, atStation_bytes, bitAt_iff, option]
  split <;> rfl

end

/-- Settles O28: each command by its reply, each record by its layout. -/
theorem recordsRead : Obligations.RecordsRead := by
  refine ⟨fun hi lo s ht => ?_, ⟨fun s ht labels => ⟨length_encodeStatus labels, ?_⟩, fun k n c s ht out => ?_,
    fun a c s ht => ?_, fun s ht => ?_⟩, listingBytes_encodeListing, nodeBytes_encodeNode, segmentBytes_encodeSegment,
    stationBytes_encodeStation, statusBytes_encodeStatus⟩
  · have listings : exec (.readListing (frameOf [hi, lo])) s = .next (keepForming (actReadListing [hi, lo] (held 4 s))) :=
      exec_frameOf (h := { fits := exactly 2, act := actReadListing }) rfl ht (by simp) rfl
    have nodes : exec (.readNode (frameOf [hi, lo])) s = .next (keepForming (actReadNode [hi, lo] (held 4 s))) :=
      exec_frameOf (h := { fits := exactly 2, act := actReadNode }) rfl ht (by simp) rfl
    have segments : exec (.readSegment (frameOf [hi, lo])) s = .next (keepForming (actReadSegment [hi, lo] (held 4 s))) :=
      exec_frameOf (h := { fits := exactly 2, act := actReadSegment }) rfl ht (by simp) rfl
    rw [keepForming_actReadListing] at listings
    rw [keepForming_actReadNode] at nodes
    rw [keepForming_actReadSegment] at segments
    intro n f
    simp only [f, listings, nodes, segments]
    refine ⟨fun bad => ?_, fun low high free => ?_, fun l low high used => ⟨?_, ?_⟩, fun bad => ?_, fun high free => ?_,
      fun x high used => ?_, fun bad => ?_, fun high free => ?_, fun g high used => ?_⟩
    · rw [if_neg (by omega)]
    · rw [if_pos ⟨low, high⟩, show tableGet s.ds.listings _ = none from free]
      rfl
    · rw [if_pos ⟨low, high⟩, show tableGet s.ds.listings _ = some l from used]
      rfl
    · show live formReply _ = _
      rw [live_running _ (show (takenForming 4 _ s).resetHeld = false from ht.1)]
      rfl
    · rw [if_neg (by omega)]
    · rw [if_pos high, show tableGet s.wg.nodes _ = none from free]
      rfl
    · rw [if_pos high, show tableGet s.wg.nodes _ = some x from used]
      rfl
    · rw [if_neg (by omega)]
    · rw [if_pos high, show tableGet s.wg.segments _ = none from free]
      rfl
    · rw [if_pos high, show tableGet s.wg.segments _ = some g from used]
      rfl
  · exact exec_frameOf (p := []) (h := { fits := exactly 0, act := fun _ => actReadStatus }) rfl ht (by simp) rfl
  · have reads : exec (.readStation (frameOf [k, n, c])) s = .next (keepForming (actReadStation [k, n, c] (held 5 s))) :=
      exec_frameOf (h := { fits := exactly 3, act := actReadStation }) rfl ht (by simp) rfl
    rw [reads, actReadStation, atStation_out out]
    rfl
  · have reads : exec (.readStation (frameOf [byteOf (a.val / 16), byteOf (a.val % 16), c])) s =
        .next (keepForming (actReadStation [byteOf (a.val / 16), byteOf (a.val % 16), c] (held 5 s))) :=
      exec_frameOf (h := { fits := exactly 3, act := actReadStation }) rfl ht (by simp) rfl
    rw [keepForming_actReadStation] at reads
    exact ⟨fun even => by rw [reads, if_neg (by omega)], fun odd => by rw [reads, if_pos odd]⟩
  · have reads : exec (.readStationChanges (frameOf [])) s = .next (keepForming (actReadStationChanges (held 2 s))) :=
      exec_frameOf (p := []) (h := { fits := exactly 0, act := fun _ => actReadStationChanges }) rfl ht (by simp) rfl
    refine ⟨mapStations (fun _ st => { st with changed := false }) s, reads, fun a => by simp, ?_⟩
    exact ⟨⟨rfl, rfl, rfl, rfl, rfl, rfl, rfl, rfl⟩, rfl, rfl, rfl, rfl, rfl, rfl, rfl⟩

end Sys2Proof.Proofs
end

section
/-! PROOF. The frames of the edit port (R188, R189): the checks made before a command, and the reply. -/

namespace Sys2Proof.Proofs
open Sys2Proof.Machine Sys2Proof.Safety Sys2Proof.Laws

/-! ### The checks -/

theorem hostCommand_of_frameBytes {c : Instr} {f : List Byte} (bytes : frameBytes c = some f) :
    ∃ h, hostCommand c = some (h, f) := by
  rw [frameBytes_eq, Option.map_eq_some_iff] at bytes
  obtain ⟨⟨h, f'⟩, e, same⟩ := bytes
  exact ⟨h, by rw [e, ← same]⟩

/-- A command of fixed payload fits at its length alone. -/
theorem fits_of_fixedLength {c : Instr} {n : Nat} {h : HostCommand} {f : List Byte} (fixed : fixedLength c = some n)
    (e : hostCommand c = some (h, f)) : h.fits = exactly n := by
  cases c <;> simp only [fixedLength, Option.some.injEq, reduceCtorEq] at fixed <;> subst fixed <;>
    (simp only [hostCommand, Option.some.injEq, Prod.mk.injEq] at e; obtain ⟨rfl, -⟩ := e; rfl)

theorem exec_discarded {c : Instr} {f : List Byte} {s : State} (bytes : frameBytes c = some f)
    (run : s.resetHeld = false) (pending : s.ep.reply.status = .pending) :
    exec c s = .next (discardFrame (driveMiso (List.replicate (f.length + 1) 0) s)) := by
  obtain ⟨h, e⟩ := hostCommand_of_frameBytes bytes
  rw [exec_host e, live_running _ run, takeFrame_pending _ _ _ _ pending]

theorem exec_refused {c : Instr} {h : HostCommand} {f : List Byte} {s : State} {r : Reason}
    (e : hostCommand c = some (h, f)) (ht : taking s) (refused : frameRefusal h.fits f = some r) :
    exec c s = .next (taken (f.length + 1) (refusal r) s) := by
  rw [exec_host e, live_running _ ht.1, takeFrame_refused _ _ _ _ ht.2 refused]

/-- A whole frame whose length does not fit its command is refused. -/
theorem exec_unfit {c : Instr} {h : HostCommand} {p : List Byte} {s : State} (e : hostCommand c = some (h, frameOf p))
    (ht : taking s) (size : p.length ≤ 250) (unfit : h.fits p = false) :
    exec c s = .next (taken (p.length + 2) (refusedWith 2) s) :=
  exec_refused (r := .badLength) e ht (by rw [frameRefusal_frameOf _ size, unfit]; rfl)

theorem frameRefusal_not_whole (fits : List Byte → Bool) {f : List Byte} (cut : frameWhole f = false) :
    frameRefusal fits f = some .badLength := by simp [frameRefusal, cut]

theorem frameRefusal_long (fits : List Byte → Bool) {len : Byte} (rest : List Byte) (long : 250 < len.toNat) :
    frameRefusal fits (len :: rest) = some .badLength := by
  have unfit : lengthFits fits (len :: rest) = false := by simp [lengthFits, Nat.not_le.2 long]
  rw [frameRefusal, unfit]
  split <;> rfl

/-- Every byte is a kind byte of the edit port or no command of the part. -/
theorem hostKinds_complete : ∀ kind : Byte, kind ∈ hostKinds ∨ (hostCommandOf kind).isNone = true := by decide

theorem hostCommandOf_unknown {kind : Byte} (unknown : kind ∉ hostKinds) : hostCommandOf kind = none :=
  Option.isNone_iff_eq_none.1 ((hostKinds_complete kind).resolve_left unknown)

theorem exec_unknownCommand {kind : Byte} {s : State} (unknown : kind ∉ hostKinds) (run : s.resetHeld = false)
    (f : List Byte) : exec (.unknownCommand kind f) s = .next (takeUnknown f s) := by
  have notReply : kind ≠ 0 := fun reply => unknown (by rw [reply]; decide)
  show execUnknownCommand kind f s = _
  rw [execUnknownCommand, live_running _ run, takeKind, if_neg notReply,
    hostCommandOf_unknown unknown]

theorem scheduleFits_short {p : List Byte} (short : p.length < 3) : scheduleFits p = false := by
  rcases p with _ | ⟨a, _ | ⟨b, _ | ⟨k, rest⟩⟩⟩
  · rfl
  · rfl
  · rfl
  · simp only [List.length_cons] at short
    omega

/-- A SCHEDULE of three bytes or more fits when the edit it carries fits, and when its edit kind is none. -/
theorem scheduleFits_long {p : List Byte} (long : 3 ≤ p.length) : scheduleFits p =
    ((editKindOf (byteAt p 2)).map fun kind => editFits kind (p.drop 3)).getD true := by
  rcases p with _ | ⟨a, _ | ⟨b, _ | ⟨k, rest⟩⟩⟩
  · simp at long
  · simp at long
  · simp at long
  · show scheduleFits (a :: b :: k :: rest) = ((editKindOf k.toNat).map fun kind => editFits kind rest).getD true
    rw [scheduleFits]
    cases editKindOf k.toNat <;> rfl

/-! ### Bytes beyond the length -/

/-- Each command of the edit port has its check and its action, whatever the bytes of its frame. -/
theorem hostCommand_of_mem : ∀ command ∈ frameCommands, ∃ h, ∀ f, hostCommand (command f) = some (h, f) := by
  unfold frameCommands
  repeat refine List.forall_mem_cons.2 ⟨⟨_, fun _ => rfl⟩, ?_⟩
  exact fun _ mem => absurd mem List.not_mem_nil

theorem byte_length {p : List Byte} (size : p.length ≤ 250) : (byteOf p.length).toNat = p.length := by
  rw [toNat_byteOf]; omega

theorem payloadOf_beyond {p : List Byte} (size : p.length ≤ 250) (beyond : List Byte) :
    payloadOf (frameOf p ++ beyond) = p := by
  simp only [frameOf, List.cons_append, payloadOf, byte_length size, List.take_left']

theorem frameRefusal_beyond (fits : List Byte → Bool) {p : List Byte} (size : p.length ≤ 250) (beyond : List Byte) :
    frameRefusal fits (frameOf p ++ beyond) = frameRefusal fits (frameOf p) := by
  have fit : lengthFits fits (frameOf p ++ beyond) = lengthFits fits (frameOf p) := by
    unfold lengthFits
    rw [payloadOf_beyond size, payloadOf_frameOf size]
    rfl
  have whole : frameWhole (frameOf p ++ beyond) = frameWhole (frameOf p) := by
    simp [frameOf, frameWhole, byte_length size]
  rw [frameRefusal, frameRefusal, fit, whole]

/-- Two frames of a command with the same payload and the same refusal differ in the bytes driven on MISO alone. -/
theorem takeFrame_driven {h : HostCommand} {f f' : List Byte} {s : State} (free : ∀ p, ActMisoFree (h.act p))
    (ready : s.ep.reply.status ≠ .pending) (refused : frameRefusal h.fits f' = frameRefusal h.fits f)
    (payload : payloadOf f' = payloadOf f) : takeFrame h.fits h.act f' s =
      driveMiso (List.replicate (f'.length + 1) 0) (takeFrame h.fits h.act f s) := by
  cases e : frameRefusal h.fits f with
  | some r =>
    rw [takeFrame_refused _ _ _ _ ready (refused.trans e), takeFrame_refused _ _ _ _ ready e]
    rfl
  | none =>
    have redriven : held (f'.length + 1) s = driveMiso (List.replicate (f'.length + 1) 0) (held (f.length + 1) s) := rfl
    rw [takeFrame_acts _ _ _ _ ready (refused.trans e), takeFrame_acts _ _ _ _ ready e, payload, redriven, free]
    rfl

/-! ### The reply -/

theorem replyFrame_whole (r : HeldReply) (beyond : Nat) : replyFrame r (r.data.length + 3 + beyond) =
    [0, byteOf (replyStatusCode r.status + if r.overrun then 128 else 0), byteOf r.data.length] ++ r.data
      ++ List.replicate beyond 0 := by
  have length : ([0, byteOf (replyStatusCode r.status + if r.overrun then 128 else 0), byteOf r.data.length]
      ++ r.data).length = r.data.length + 3 := by simp
  rw [replyFrame, ← length, List.take_length_add_append, List.take_replicate, min_eq_left (by omega)]

theorem exec_replyFormed {s : State} {f : Forming} (run : s.resetHeld = false) (forming : s.ep.forming = some f) :
    exec .replyFormed s = .next { s with ep := { s.ep with
      reply := { status := (formedReply s f).status, overrun := s.ep.discarded, data := (formedReply s f).data }
      forming := none, discarded := false } } := by
  show live formReply s = _
  rw [live_running _ run, formReply, forming]

/-- Settles O13, a lemma for each clause. -/
theorem framesAndReplies : Obligations.FramesAndReplies := by
  refine ⟨⟨⟨fun c f s bytes run pending => exec_discarded bytes run pending, fun kind f s unknown run pending => ?_⟩,
      fun c f s bytes ht cut => ?_, fun c len rest s bytes ht long => ?_, fun c n p s fixed bytes size other ht => ?_,
      fun p s size ht => ⟨fun other => ?_, fun other => ?_, fun short => ?_, fun kind long known unfit => ?_,
        fun long unknown => ?_⟩, fun command mem p size beyond s ht => ?_, fun kind f s unknown ht => ?_⟩,
    fun s beyond run => ?_, fun s n run => ?_, fun s => rfl, fun s i b run driven => ?_,
    fun s f r run forming formed => ?_⟩
  · rw [exec_unknownCommand unknown run, takeUnknown, if_pos pending]
    rfl
  · obtain ⟨h, e⟩ := hostCommand_of_frameBytes bytes
    exact exec_refused e ht (frameRefusal_not_whole _ cut)
  · obtain ⟨h, e⟩ := hostCommand_of_frameBytes bytes
    exact exec_refused e ht (frameRefusal_long _ _ long)
  · obtain ⟨h, e⟩ := hostCommand_of_frameBytes bytes
    exact exec_unfit e ht size (by rw [fits_of_fixedLength fixed e, exactly]; simpa using other)
  · exact exec_unfit (h := { fits := editFits .putListing, act := actEdit .putListing }) rfl ht size
      (by simpa [editFits] using other)
  · exact exec_unfit (h := { fits := fun p => decide (p.length % 3 = 0), act := actLoad }) rfl ht size (by simpa using other)
  · exact exec_unfit (h := { fits := scheduleFits, act := actSchedule }) rfl ht size (scheduleFits_short short)
  · have unfits : scheduleFits p = false := by rw [scheduleFits_long long, known]; exact unfit
    exact exec_unfit (h := { fits := scheduleFits, act := actSchedule }) rfl ht size unfits
  · have fits : scheduleFits p = true := by rw [scheduleFits_long long, unknown]; rfl
    have unread : scheduledEdit p = none :=
      (scheduledEdit_eq_none_iff p).2 (.inr fun kind known => absurd known (by simp [unknown]))
    rw [exec_frameOf (h := { fits := scheduleFits, act := actSchedule }) rfl ht size fits]
    simp only [actSchedule, unread]
    rfl
  · obtain ⟨h, e⟩ := hostCommand_of_mem command mem
    refine ⟨_, by rw [exec_host (e _), live_running _ ht.1], ?_⟩
    rw [exec_host (e _), live_running _ ht.1, takeFrame_driven (f := frameOf p) (fun q => hostCommand_miso (e []) q) ht.2
      (frameRefusal_beyond _ size beyond) (by rw [payloadOf_beyond size, payloadOf_frameOf size])]
    simp only [frameOf, List.length_append, List.length_cons]
    rw [show p.length + 1 + beyond.length + 1 = p.length + 2 + beyond.length by omega]
    rfl
  · rw [exec_unknownCommand unknown ht.1, takeUnknown, if_neg ht.2]
    cases frameWhole f <;> rfl
  · show live (readReply _) s = _
    rw [live_running _ run, readReply, replyFrame_whole]
    rfl
  · show live (readReply _) s = _
    rw [live_running _ run]
    rfl
  · simp [misoPin, run, driven, levelOf]
  · have reply : formedReply s f = r := by
      rcases formed with rfl | ⟨n, l, rfl, rfl⟩ | ⟨stations, rfl, rfl⟩
      · rfl
      · rfl
      · simp only [formedReply, changeRecords, stationCode_eq]
        rfl
    rw [exec_replyFormed run forming, reply]

end Sys2Proof.Proofs
end
